-- ==== Sys2Proof/Word.lean ====
section
/-! DEFINITION. The two widths of the hardware (00_scope.md R8, R9). -/

namespace Sys2Proof

/-- A register, flag register or storage byte: 8 bits, "u8" (R9). -/
abbrev Byte := BitVec 8

/-- The program counter or a bus address: 16 bits, "u16" (R9). -/
abbrev U16 := BitVec 16

end Sys2Proof
end

