-- ==== Sys2Proof/Syntax.lean ====
section
/-! DEFINITION. The instructions: one constructor for each of the 82 mapped rows of spec/opcode_table.json
(30_encoding.md R86), and one, `unmapped`, for its 174 rows UNMAPPED (R88), which differ in their byte only.

A constructor carries the operand the instruction bytes hold, already assembled (R84): `v` an immediate datum,
`z` a zero-page address byte, `w` a 16-bit address or pointer, `d` a branch displacement byte. -/

namespace Sys2Proof

/-- An instruction: a (mnemonic, addressing mode) pair of R86 with its operand, or an unmapped byte (R88). -/
inductive Instr where
  -- load and store (41_load_store.md, R131 to R136)
  /-- LDA #v: bytes A9 v (Immediate; R131). -/
  | ldaImmediate (v : Byte)
  /-- LDA z: bytes A5 z (ZeroPage; R131). -/
  | ldaZeroPage (z : Byte)
  /-- LDA z,X: bytes B5 z (ZeroPageX; R131). -/
  | ldaZeroPageX (z : Byte)
  /-- LDA w: bytes AD hi(w) lo(w) (Absolute; R131). -/
  | ldaAbsolute (w : U16)
  /-- LDA w,X: bytes BD hi(w) lo(w) (AbsoluteX; R131). -/
  | ldaAbsoluteX (w : U16)
  /-- LDA w,Y: bytes B9 hi(w) lo(w) (AbsoluteY; R131). -/
  | ldaAbsoluteY (w : U16)
  /-- LDA (z,X): bytes A1 z (IndirectX; R131). -/
  | ldaIndirectX (z : Byte)
  /-- LDA (z),Y: bytes B1 z (IndirectY; R131). -/
  | ldaIndirectY (z : Byte)
  /-- LDX #v: bytes A2 v (Immediate; R132). -/
  | ldxImmediate (v : Byte)
  /-- LDX z: bytes A6 z (ZeroPage; R132). -/
  | ldxZeroPage (z : Byte)
  /-- LDX z,Y: bytes B6 z (ZeroPageY; R132). -/
  | ldxZeroPageY (z : Byte)
  /-- LDX w: bytes AE hi(w) lo(w) (Absolute; R132). -/
  | ldxAbsolute (w : U16)
  /-- LDX w,Y: bytes BE hi(w) lo(w) (AbsoluteY; R132). -/
  | ldxAbsoluteY (w : U16)
  /-- LDY #v: bytes A0 v (Immediate; R133). -/
  | ldyImmediate (v : Byte)
  /-- LDY z: bytes A4 z (ZeroPage; R133). -/
  | ldyZeroPage (z : Byte)
  /-- LDY z,X: bytes B4 z (ZeroPageX; R133). -/
  | ldyZeroPageX (z : Byte)
  /-- LDY w: bytes AC hi(w) lo(w) (Absolute; R133). -/
  | ldyAbsolute (w : U16)
  /-- LDY w,X: bytes BC hi(w) lo(w) (AbsoluteX; R133). -/
  | ldyAbsoluteX (w : U16)
  /-- STA z: bytes 85 z (ZeroPage; R134). -/
  | staZeroPage (z : Byte)
  /-- STA z,X: bytes 95 z (ZeroPageX; R134). -/
  | staZeroPageX (z : Byte)
  /-- STA w: bytes 8D hi(w) lo(w) (Absolute; R134). -/
  | staAbsolute (w : U16)
  /-- STA w,X: bytes 9D hi(w) lo(w) (AbsoluteX; R134). -/
  | staAbsoluteX (w : U16)
  /-- STA w,Y: bytes 99 hi(w) lo(w) (AbsoluteY; R134). -/
  | staAbsoluteY (w : U16)
  /-- STA (z,X): bytes 81 z (IndirectX; R134). -/
  | staIndirectX (z : Byte)
  /-- STA (z),Y: bytes 91 z (IndirectY; R134). -/
  | staIndirectY (z : Byte)
  /-- STX z: bytes 86 z (ZeroPage; R135). -/
  | stxZeroPage (z : Byte)
  /-- STX z,Y: bytes 96 z (ZeroPageY; R135). -/
  | stxZeroPageY (z : Byte)
  /-- STX w: bytes 8E hi(w) lo(w) (Absolute; R135). -/
  | stxAbsolute (w : U16)
  /-- STY z: bytes 84 z (ZeroPage; R136). -/
  | styZeroPage (z : Byte)
  /-- STY z,X: bytes 94 z (ZeroPageX; R136). -/
  | styZeroPageX (z : Byte)
  /-- STY w: bytes 8C hi(w) lo(w) (Absolute; R136). -/
  | styAbsolute (w : U16)
  -- register transfers (42_transfer.md, R141 to R146)
  /-- TAX: bytes AA (Implied; R141). -/
  | tax
  /-- TAY: bytes A8 (Implied; R142). -/
  | tay
  /-- TSX: bytes BA (Implied; R143). -/
  | tsx
  /-- TXA: bytes 8A (Implied; R144). -/
  | txa
  /-- TXS: bytes 9A (Implied; R145). -/
  | txs
  /-- TYA: bytes 98 (Implied; R146). -/
  | tya
  -- increment and decrement (43_incdec.md, R151 to R156)
  /-- INC z: bytes E6 z (ZeroPage; R151). -/
  | incZeroPage (z : Byte)
  /-- INC z,X: bytes F6 z (ZeroPageX; R151). -/
  | incZeroPageX (z : Byte)
  /-- INC w: bytes EE hi(w) lo(w) (Absolute; R151). -/
  | incAbsolute (w : U16)
  /-- INC w,X: bytes FE hi(w) lo(w) (AbsoluteX; R151). -/
  | incAbsoluteX (w : U16)
  /-- DEC z: bytes C6 z (ZeroPage; R152). -/
  | decZeroPage (z : Byte)
  /-- DEC z,X: bytes D6 z (ZeroPageX; R152). -/
  | decZeroPageX (z : Byte)
  /-- DEC w: bytes CE hi(w) lo(w) (Absolute; R152). -/
  | decAbsolute (w : U16)
  /-- DEC w,X: bytes DE hi(w) lo(w) (AbsoluteX; R152). -/
  | decAbsoluteX (w : U16)
  /-- INX: bytes E8 (Implied; R153). -/
  | inx
  /-- INY: bytes C8 (Implied; R154). -/
  | iny
  /-- DEX: bytes CA (Implied; R155). -/
  | dex
  /-- DEY: bytes 88 (Implied; R156). -/
  | dey
  -- jump and branches (44_jump_branch.md, R160 to R169)
  /-- JMP w: bytes 4C hi(w) lo(w) (Absolute; R160). -/
  | jmpAbsolute (w : U16)
  /-- JMP (w): bytes 6C hi(w) lo(w) (Indirect; R160). -/
  | jmpIndirect (w : U16)
  /-- BCC d: bytes 90 d (Relative; R162). -/
  | bcc (d : Byte)
  /-- BCS d: bytes B0 d (Relative; R163). -/
  | bcs (d : Byte)
  /-- BEQ d: bytes F0 d (Relative; R164). -/
  | beq (d : Byte)
  /-- BNE d: bytes D0 d (Relative; R165). -/
  | bne (d : Byte)
  /-- BMI d: bytes 30 d (Relative; R166). -/
  | bmi (d : Byte)
  /-- BPL d: bytes 10 d (Relative; R167). -/
  | bpl (d : Byte)
  /-- BVC d: bytes 50 d (Relative; R168). -/
  | bvc (d : Byte)
  /-- BVS d: bytes 70 d (Relative; R169). -/
  | bvs (d : Byte)
  -- add and subtract with carry (45_arith.md, R181, R182)
  /-- ADC #v: bytes 69 v (Immediate; R181). -/
  | adcImmediate (v : Byte)
  /-- ADC z: bytes 65 z (ZeroPage; R181). -/
  | adcZeroPage (z : Byte)
  /-- ADC z,X: bytes 75 z (ZeroPageX; R181). -/
  | adcZeroPageX (z : Byte)
  /-- ADC w: bytes 6D hi(w) lo(w) (Absolute; R181). -/
  | adcAbsolute (w : U16)
  /-- ADC w,X: bytes 7D hi(w) lo(w) (AbsoluteX; R181). -/
  | adcAbsoluteX (w : U16)
  /-- ADC w,Y: bytes 79 hi(w) lo(w) (AbsoluteY; R181). -/
  | adcAbsoluteY (w : U16)
  /-- ADC (z,X): bytes 61 z (IndirectX; R181). -/
  | adcIndirectX (z : Byte)
  /-- ADC (z),Y: bytes 71 z (IndirectY; R181). -/
  | adcIndirectY (z : Byte)
  /-- SBC #v: bytes E9 v (Immediate; R182). -/
  | sbcImmediate (v : Byte)
  /-- SBC z: bytes E5 z (ZeroPage; R182). -/
  | sbcZeroPage (z : Byte)
  /-- SBC z,X: bytes F5 z (ZeroPageX; R182). -/
  | sbcZeroPageX (z : Byte)
  /-- SBC w: bytes ED hi(w) lo(w) (Absolute; R182). -/
  | sbcAbsolute (w : U16)
  /-- SBC w,X: bytes FD hi(w) lo(w) (AbsoluteX; R182). -/
  | sbcAbsoluteX (w : U16)
  /-- SBC w,Y: bytes F9 hi(w) lo(w) (AbsoluteY; R182). -/
  | sbcAbsoluteY (w : U16)
  /-- SBC (z,X): bytes E1 z (IndirectX; R182). -/
  | sbcIndirectX (z : Byte)
  /-- SBC (z),Y: bytes F1 z (IndirectY; R182). -/
  | sbcIndirectY (z : Byte)
  -- stack and subroutine (46_stack_subroutine.md, R192 to R198)
  /-- PHA: bytes 48 (Implied; R192). -/
  | pha
  /-- PHP: bytes 08 (Implied; R193). -/
  | php
  /-- PLA: bytes 68 (Implied; R194). -/
  | pla
  /-- PLP: bytes 28 (Implied; R195). -/
  | plp
  /-- JSR w: bytes 20 hi(w) lo(w) (Absolute; R196). -/
  | jsr (w : U16)
  /-- RTS: bytes 60 (Implied; R197). -/
  | rts
  /-- RTI: bytes 40 (Implied; R198). -/
  | rti
  -- every other byte (30_encoding.md R88, 47_dispatch.md R203)
  /-- An opcode byte with no entry in the opcode table: the tick changes no state (R203). -/
  | unmapped (op : Byte)
deriving DecidableEq, Repr

end Sys2Proof
end

