-- ==== Sys2Proof/WellFormed.lean ====
section
/-! DEFINITION. Which terms of `Instr` are instructions of the hardware. The constructors of the 82 mapped rows carry
operands whose every value the encoding admits (30_encoding.md R84, R87), so the one thing to check is that
`unmapped` is used with an unmapped byte (R88). -/

namespace Sys2Proof

/-- The 174 unmapped opcode bytes as 30_encoding.md R88 lists them, one line of the opcode matrix after another. -/
def unmappedOpcodes : List Byte :=
  [0x00#8, 0x01#8, 0x02#8, 0x03#8, 0x04#8, 0x05#8, 0x06#8, 0x07#8,
   0x09#8, 0x0A#8, 0x0B#8, 0x0C#8, 0x0D#8, 0x0E#8, 0x0F#8] ++
  [0x11#8, 0x12#8, 0x13#8, 0x14#8, 0x15#8, 0x16#8, 0x17#8, 0x18#8,
   0x19#8, 0x1A#8, 0x1B#8, 0x1C#8, 0x1D#8, 0x1E#8, 0x1F#8] ++
  [0x21#8, 0x22#8, 0x23#8, 0x24#8, 0x25#8, 0x26#8, 0x27#8, 0x29#8,
   0x2A#8, 0x2B#8, 0x2C#8, 0x2D#8, 0x2E#8, 0x2F#8] ++
  [0x31#8, 0x32#8, 0x33#8, 0x34#8, 0x35#8, 0x36#8, 0x37#8, 0x38#8,
   0x39#8, 0x3A#8, 0x3B#8, 0x3C#8, 0x3D#8, 0x3E#8, 0x3F#8] ++
  [0x41#8, 0x42#8, 0x43#8, 0x44#8, 0x45#8, 0x46#8, 0x47#8, 0x49#8,
   0x4A#8, 0x4B#8, 0x4D#8, 0x4E#8, 0x4F#8] ++
  [0x51#8, 0x52#8, 0x53#8, 0x54#8, 0x55#8, 0x56#8, 0x57#8, 0x58#8,
   0x59#8, 0x5A#8, 0x5B#8, 0x5C#8, 0x5D#8, 0x5E#8, 0x5F#8] ++
  [0x62#8, 0x63#8, 0x64#8, 0x66#8, 0x67#8, 0x6A#8, 0x6B#8, 0x6E#8,
   0x6F#8] ++
  [0x72#8, 0x73#8, 0x74#8, 0x76#8, 0x77#8, 0x78#8, 0x7A#8, 0x7B#8,
   0x7C#8, 0x7E#8, 0x7F#8] ++
  [0x80#8, 0x82#8, 0x83#8, 0x87#8, 0x89#8, 0x8B#8, 0x8F#8] ++
  [0x92#8, 0x93#8, 0x97#8, 0x9B#8, 0x9C#8, 0x9E#8, 0x9F#8] ++
  [0xA3#8, 0xA7#8, 0xAB#8, 0xAF#8] ++
  [0xB2#8, 0xB3#8, 0xB7#8, 0xB8#8, 0xBB#8, 0xBF#8] ++
  [0xC0#8, 0xC1#8, 0xC2#8, 0xC3#8, 0xC4#8, 0xC5#8, 0xC7#8, 0xC9#8,
   0xCB#8, 0xCC#8, 0xCD#8, 0xCF#8] ++
  [0xD1#8, 0xD2#8, 0xD3#8, 0xD4#8, 0xD5#8, 0xD7#8, 0xD8#8, 0xD9#8,
   0xDA#8, 0xDB#8, 0xDC#8, 0xDD#8, 0xDF#8] ++
  [0xE0#8, 0xE2#8, 0xE3#8, 0xE4#8, 0xE7#8, 0xEA#8, 0xEB#8, 0xEC#8,
   0xEF#8] ++
  [0xF2#8, 0xF3#8, 0xF4#8, 0xF7#8, 0xF8#8, 0xFA#8, 0xFB#8, 0xFC#8,
   0xFF#8]

/-- A well-formed instruction: a mapped row with any operand, or an unmapped byte of R88. -/
def Instr.wellFormed : Instr → Bool
  | .ldaImmediate _ | .ldaZeroPage _ | .ldaZeroPageX _ | .ldaAbsolute _ | .ldaAbsoluteX _ | .ldaAbsoluteY _ | .ldaIndirectX _ | .ldaIndirectY _ => true
  | .ldxImmediate _ | .ldxZeroPage _ | .ldxZeroPageY _ | .ldxAbsolute _ | .ldxAbsoluteY _ => true
  | .ldyImmediate _ | .ldyZeroPage _ | .ldyZeroPageX _ | .ldyAbsolute _ | .ldyAbsoluteX _ => true
  | .staZeroPage _ | .staZeroPageX _ | .staAbsolute _ | .staAbsoluteX _ | .staAbsoluteY _ | .staIndirectX _ | .staIndirectY _ => true
  | .stxZeroPage _ | .stxZeroPageY _ | .stxAbsolute _ => true
  | .styZeroPage _ | .styZeroPageX _ | .styAbsolute _ => true
  | .tax => true
  | .tay => true
  | .tsx => true
  | .txa => true
  | .txs => true
  | .tya => true
  | .incZeroPage _ | .incZeroPageX _ | .incAbsolute _ | .incAbsoluteX _ => true
  | .decZeroPage _ | .decZeroPageX _ | .decAbsolute _ | .decAbsoluteX _ => true
  | .inx => true
  | .iny => true
  | .dex => true
  | .dey => true
  | .jmpAbsolute _ | .jmpIndirect _ => true
  | .bcc _ => true
  | .bcs _ => true
  | .beq _ => true
  | .bne _ => true
  | .bmi _ => true
  | .bpl _ => true
  | .bvc _ => true
  | .bvs _ => true
  | .adcImmediate _ | .adcZeroPage _ | .adcZeroPageX _ | .adcAbsolute _ | .adcAbsoluteX _ | .adcAbsoluteY _ | .adcIndirectX _ | .adcIndirectY _ => true
  | .sbcImmediate _ | .sbcZeroPage _ | .sbcZeroPageX _ | .sbcAbsolute _ | .sbcAbsoluteX _ | .sbcAbsoluteY _ | .sbcIndirectX _ | .sbcIndirectY _ => true
  | .pha => true
  | .php => true
  | .pla => true
  | .plp => true
  | .jsr _ => true
  | .rts => true
  | .rti => true
  | .unmapped op => unmappedOpcodes.contains op

end Sys2Proof
end

