-- ==== Sys2Proof/Decode.lean ====
section
/-! DEFINITION. The encoding (30_encoding.md): formats and operand assembly (R80, R81, R84), the opcode table (R86), the
decoder, total on any bytes, and after it the encoder. The opcode byte alone selects the row (R82, R83). -/

namespace Sys2Proof

/-! ## Bytes and 16-bit values -/

/-- `(h << 8) | l` (R9). -/
def word (h l : Byte) : U16 := h ++ l

/-- Bits 15..8 (R9). -/
def hiByte (w : U16) : Byte := w.extractLsb' 8 8

/-- Bits 7..0 (R9). -/
def loByte (w : U16) : Byte := w.setWidth 8

/-! ## Addressing modes and operands -/

/-- The twelve addressing modes (40_addressing.md; Implied is R122). -/
inductive Mode where
  | implied
  | immediate
  | zeroPage
  | zeroPageX
  | zeroPageY
  | absolute
  | absoluteX
  | absoluteY
  | indirect
  | indirectX
  | indirectY
  | relative
deriving DecidableEq, Repr

/-- The length in bytes that a mode fixes, opcode byte included (R81). -/
def Mode.length : Mode → Nat
  | .implied => 1
  | .immediate | .zeroPage | .zeroPageX | .zeroPageY | .indirectX | .indirectY | .relative => 2
  | .absolute | .absoluteX | .absoluteY | .indirect => 3

/-- An operand: its mode and what the operand bytes give it (R84). -/
inductive Operand where
  | implied
  | immediate (v : Byte)
  | zeroPage (z : Byte)
  | zeroPageX (z : Byte)
  | zeroPageY (z : Byte)
  | absolute (w : U16)
  | absoluteX (w : U16)
  | absoluteY (w : U16)
  | indirect (w : U16)
  | indirectX (z : Byte)
  | indirectY (z : Byte)
  | relative (d : Byte)
deriving DecidableEq, Repr

/-- The mode of an operand. -/
def Operand.mode : Operand → Mode
  | .implied => .implied
  | .immediate _ => .immediate
  | .zeroPage _ => .zeroPage
  | .zeroPageX _ => .zeroPageX
  | .zeroPageY _ => .zeroPageY
  | .absolute _ => .absolute
  | .absoluteX _ => .absoluteX
  | .absoluteY _ => .absoluteY
  | .indirect _ => .indirect
  | .indirectX _ => .indirectX
  | .indirectY _ => .indirectY
  | .relative _ => .relative

/-- The length in bytes of an instruction with this operand (R81). -/
def Operand.length (o : Operand) : Nat := o.mode.length

/-- The operand bytes as they follow the opcode byte: a 16-bit operand has its HIGH byte first (R80 format F3, R84, R91). -/
def Operand.bytes : Operand → List Byte
  | .implied => []
  | .immediate v => [v]
  | .zeroPage z | .zeroPageX z | .zeroPageY z | .indirectX z | .indirectY z => [z]
  | .relative d => [d]
  | .absolute w | .absoluteX w | .absoluteY w | .indirect w => [hiByte w, loByte w]

/-- The operand of mode `m` that the bytes `b1`, `b2` after the opcode give (R84): a 16-bit operand is `(b1 << 8) | b2`. -/
def Operand.ofBytes (m : Mode) (b1 b2 : Byte) : Operand :=
  match m with
  | .implied => .implied
  | .immediate => .immediate b1
  | .zeroPage => .zeroPage b1
  | .zeroPageX => .zeroPageX b1
  | .zeroPageY => .zeroPageY b1
  | .absolute => .absolute (word b1 b2)
  | .absoluteX => .absoluteX (word b1 b2)
  | .absoluteY => .absoluteY (word b1 b2)
  | .indirect => .indirect (word b1 b2)
  | .indirectX => .indirectX b1
  | .indirectY => .indirectY b1
  | .relative => .relative b1

/-! ## The decoder -/

/-- The opcode table (R86) read at the opcode byte `op`, with the operand assembled from the two bytes that follow it (R84);
a byte without an entry is unmapped (R88). Which of `b1`, `b2` are used depends on `op` alone (R82). -/
def decodeOp (op b1 b2 : Byte) : Instr :=
  match op with
  | 0xA9#8 => .ldaImmediate b1
  | 0xA5#8 => .ldaZeroPage b1
  | 0xB5#8 => .ldaZeroPageX b1
  | 0xAD#8 => .ldaAbsolute (word b1 b2)
  | 0xBD#8 => .ldaAbsoluteX (word b1 b2)
  | 0xB9#8 => .ldaAbsoluteY (word b1 b2)
  | 0xA1#8 => .ldaIndirectX b1
  | 0xB1#8 => .ldaIndirectY b1
  | 0xA2#8 => .ldxImmediate b1
  | 0xA6#8 => .ldxZeroPage b1
  | 0xB6#8 => .ldxZeroPageY b1
  | 0xAE#8 => .ldxAbsolute (word b1 b2)
  | 0xBE#8 => .ldxAbsoluteY (word b1 b2)
  | 0xA0#8 => .ldyImmediate b1
  | 0xA4#8 => .ldyZeroPage b1
  | 0xB4#8 => .ldyZeroPageX b1
  | 0xAC#8 => .ldyAbsolute (word b1 b2)
  | 0xBC#8 => .ldyAbsoluteX (word b1 b2)
  | 0x85#8 => .staZeroPage b1
  | 0x95#8 => .staZeroPageX b1
  | 0x8D#8 => .staAbsolute (word b1 b2)
  | 0x9D#8 => .staAbsoluteX (word b1 b2)
  | 0x99#8 => .staAbsoluteY (word b1 b2)
  | 0x81#8 => .staIndirectX b1
  | 0x91#8 => .staIndirectY b1
  | 0x86#8 => .stxZeroPage b1
  | 0x96#8 => .stxZeroPageY b1
  | 0x8E#8 => .stxAbsolute (word b1 b2)
  | 0x84#8 => .styZeroPage b1
  | 0x94#8 => .styZeroPageX b1
  | 0x8C#8 => .styAbsolute (word b1 b2)
  | 0xAA#8 => .tax
  | 0xA8#8 => .tay
  | 0xBA#8 => .tsx
  | 0x8A#8 => .txa
  | 0x9A#8 => .txs
  | 0x98#8 => .tya
  | 0xE6#8 => .incZeroPage b1
  | 0xF6#8 => .incZeroPageX b1
  | 0xEE#8 => .incAbsolute (word b1 b2)
  | 0xFE#8 => .incAbsoluteX (word b1 b2)
  | 0xC6#8 => .decZeroPage b1
  | 0xD6#8 => .decZeroPageX b1
  | 0xCE#8 => .decAbsolute (word b1 b2)
  | 0xDE#8 => .decAbsoluteX (word b1 b2)
  | 0xE8#8 => .inx
  | 0xC8#8 => .iny
  | 0xCA#8 => .dex
  | 0x88#8 => .dey
  | 0x4C#8 => .jmpAbsolute (word b1 b2)
  | 0x6C#8 => .jmpIndirect (word b1 b2)
  | 0x90#8 => .bcc b1
  | 0xB0#8 => .bcs b1
  | 0xF0#8 => .beq b1
  | 0xD0#8 => .bne b1
  | 0x30#8 => .bmi b1
  | 0x10#8 => .bpl b1
  | 0x50#8 => .bvc b1
  | 0x70#8 => .bvs b1
  | 0x69#8 => .adcImmediate b1
  | 0x65#8 => .adcZeroPage b1
  | 0x75#8 => .adcZeroPageX b1
  | 0x6D#8 => .adcAbsolute (word b1 b2)
  | 0x7D#8 => .adcAbsoluteX (word b1 b2)
  | 0x79#8 => .adcAbsoluteY (word b1 b2)
  | 0x61#8 => .adcIndirectX b1
  | 0x71#8 => .adcIndirectY b1
  | 0xE9#8 => .sbcImmediate b1
  | 0xE5#8 => .sbcZeroPage b1
  | 0xF5#8 => .sbcZeroPageX b1
  | 0xED#8 => .sbcAbsolute (word b1 b2)
  | 0xFD#8 => .sbcAbsoluteX (word b1 b2)
  | 0xF9#8 => .sbcAbsoluteY (word b1 b2)
  | 0xE1#8 => .sbcIndirectX b1
  | 0xF1#8 => .sbcIndirectY b1
  | 0x48#8 => .pha
  | 0x08#8 => .php
  | 0x68#8 => .pla
  | 0x28#8 => .plp
  | 0x20#8 => .jsr (word b1 b2)
  | 0x60#8 => .rts
  | 0x40#8 => .rti
  | _ => .unmapped op

/-- The operand of an instruction; none for an unmapped byte, which has no mode (R82, format F0 of R80). -/
def Instr.operand : Instr → Option Operand
  | .ldaImmediate v => some (.immediate v)
  | .ldaZeroPage z => some (.zeroPage z)
  | .ldaZeroPageX z => some (.zeroPageX z)
  | .ldaAbsolute w => some (.absolute w)
  | .ldaAbsoluteX w => some (.absoluteX w)
  | .ldaAbsoluteY w => some (.absoluteY w)
  | .ldaIndirectX z => some (.indirectX z)
  | .ldaIndirectY z => some (.indirectY z)
  | .ldxImmediate v => some (.immediate v)
  | .ldxZeroPage z => some (.zeroPage z)
  | .ldxZeroPageY z => some (.zeroPageY z)
  | .ldxAbsolute w => some (.absolute w)
  | .ldxAbsoluteY w => some (.absoluteY w)
  | .ldyImmediate v => some (.immediate v)
  | .ldyZeroPage z => some (.zeroPage z)
  | .ldyZeroPageX z => some (.zeroPageX z)
  | .ldyAbsolute w => some (.absolute w)
  | .ldyAbsoluteX w => some (.absoluteX w)
  | .staZeroPage z => some (.zeroPage z)
  | .staZeroPageX z => some (.zeroPageX z)
  | .staAbsolute w => some (.absolute w)
  | .staAbsoluteX w => some (.absoluteX w)
  | .staAbsoluteY w => some (.absoluteY w)
  | .staIndirectX z => some (.indirectX z)
  | .staIndirectY z => some (.indirectY z)
  | .stxZeroPage z => some (.zeroPage z)
  | .stxZeroPageY z => some (.zeroPageY z)
  | .stxAbsolute w => some (.absolute w)
  | .styZeroPage z => some (.zeroPage z)
  | .styZeroPageX z => some (.zeroPageX z)
  | .styAbsolute w => some (.absolute w)
  | .tax => some .implied
  | .tay => some .implied
  | .tsx => some .implied
  | .txa => some .implied
  | .txs => some .implied
  | .tya => some .implied
  | .incZeroPage z => some (.zeroPage z)
  | .incZeroPageX z => some (.zeroPageX z)
  | .incAbsolute w => some (.absolute w)
  | .incAbsoluteX w => some (.absoluteX w)
  | .decZeroPage z => some (.zeroPage z)
  | .decZeroPageX z => some (.zeroPageX z)
  | .decAbsolute w => some (.absolute w)
  | .decAbsoluteX w => some (.absoluteX w)
  | .inx => some .implied
  | .iny => some .implied
  | .dex => some .implied
  | .dey => some .implied
  | .jmpAbsolute w => some (.absolute w)
  | .jmpIndirect w => some (.indirect w)
  | .bcc d => some (.relative d)
  | .bcs d => some (.relative d)
  | .beq d => some (.relative d)
  | .bne d => some (.relative d)
  | .bmi d => some (.relative d)
  | .bpl d => some (.relative d)
  | .bvc d => some (.relative d)
  | .bvs d => some (.relative d)
  | .adcImmediate v => some (.immediate v)
  | .adcZeroPage z => some (.zeroPage z)
  | .adcZeroPageX z => some (.zeroPageX z)
  | .adcAbsolute w => some (.absolute w)
  | .adcAbsoluteX w => some (.absoluteX w)
  | .adcAbsoluteY w => some (.absoluteY w)
  | .adcIndirectX z => some (.indirectX z)
  | .adcIndirectY z => some (.indirectY z)
  | .sbcImmediate v => some (.immediate v)
  | .sbcZeroPage z => some (.zeroPage z)
  | .sbcZeroPageX z => some (.zeroPageX z)
  | .sbcAbsolute w => some (.absolute w)
  | .sbcAbsoluteX w => some (.absoluteX w)
  | .sbcAbsoluteY w => some (.absoluteY w)
  | .sbcIndirectX z => some (.indirectX z)
  | .sbcIndirectY z => some (.indirectY z)
  | .pha => some .implied
  | .php => some .implied
  | .pla => some .implied
  | .plp => some .implied
  | .jsr w => some (.absolute w)
  | .rts => some .implied
  | .rti => some .implied
  | .unmapped _ => none

/-- How many bytes the instruction occupies (R81); an unmapped byte has no length, nothing is consumed (R82, format F0 of R80). -/
def Instr.length (i : Instr) : Nat :=
  match i.operand with
  | some o => o.length
  | none => 0

/-- Why bytes hold no instruction: there are too few of them. No byte value is refused (R89). -/
inductive DecodeError where
  /-- There is no opcode byte. -/
  | noOpcode
  /-- The bytes end before the last operand byte of the instruction that `op` begins. -/
  | missingOperand (op : Byte)
deriving DecidableEq, Repr

/-- The instruction at the head of a list of bytes. -/
def decode : List Byte → Except DecodeError Instr
  | [] => .error .noOpcode
  | op :: rest =>
    let i := decodeOp op (rest.getD 0 0) (rest.getD 1 0)
    if rest.length + 1 < i.length then .error (.missingOperand op) else .ok i

/-- Byte `k` of a number whose bit 0 is the least significant bit of the first byte. -/
def tableByte (w k : Nat) : Byte := BitVec.ofNat 8 (w >>> (8 * k))

/-- The decoder on a word numbered as spec/opcode_table.json numbers its bits: the first byte is bits 7..0, the second 15..8, the
third 23..16; the bits from `nbits` up are 0. -/
def decodeTableWord (nbits w : Nat) : Option Instr :=
  let u := w % 2 ^ nbits
  (decode [tableByte u 0, tableByte u 1, tableByte u 2]).toOption

/-! ## The encoder -/

/-- The opcode byte (R86; for an unmapped byte, itself). -/
def Instr.opcode : Instr → Byte
  | .ldaImmediate _ => 0xA9#8
  | .ldaZeroPage _ => 0xA5#8
  | .ldaZeroPageX _ => 0xB5#8
  | .ldaAbsolute _ => 0xAD#8
  | .ldaAbsoluteX _ => 0xBD#8
  | .ldaAbsoluteY _ => 0xB9#8
  | .ldaIndirectX _ => 0xA1#8
  | .ldaIndirectY _ => 0xB1#8
  | .ldxImmediate _ => 0xA2#8
  | .ldxZeroPage _ => 0xA6#8
  | .ldxZeroPageY _ => 0xB6#8
  | .ldxAbsolute _ => 0xAE#8
  | .ldxAbsoluteY _ => 0xBE#8
  | .ldyImmediate _ => 0xA0#8
  | .ldyZeroPage _ => 0xA4#8
  | .ldyZeroPageX _ => 0xB4#8
  | .ldyAbsolute _ => 0xAC#8
  | .ldyAbsoluteX _ => 0xBC#8
  | .staZeroPage _ => 0x85#8
  | .staZeroPageX _ => 0x95#8
  | .staAbsolute _ => 0x8D#8
  | .staAbsoluteX _ => 0x9D#8
  | .staAbsoluteY _ => 0x99#8
  | .staIndirectX _ => 0x81#8
  | .staIndirectY _ => 0x91#8
  | .stxZeroPage _ => 0x86#8
  | .stxZeroPageY _ => 0x96#8
  | .stxAbsolute _ => 0x8E#8
  | .styZeroPage _ => 0x84#8
  | .styZeroPageX _ => 0x94#8
  | .styAbsolute _ => 0x8C#8
  | .tax => 0xAA#8
  | .tay => 0xA8#8
  | .tsx => 0xBA#8
  | .txa => 0x8A#8
  | .txs => 0x9A#8
  | .tya => 0x98#8
  | .incZeroPage _ => 0xE6#8
  | .incZeroPageX _ => 0xF6#8
  | .incAbsolute _ => 0xEE#8
  | .incAbsoluteX _ => 0xFE#8
  | .decZeroPage _ => 0xC6#8
  | .decZeroPageX _ => 0xD6#8
  | .decAbsolute _ => 0xCE#8
  | .decAbsoluteX _ => 0xDE#8
  | .inx => 0xE8#8
  | .iny => 0xC8#8
  | .dex => 0xCA#8
  | .dey => 0x88#8
  | .jmpAbsolute _ => 0x4C#8
  | .jmpIndirect _ => 0x6C#8
  | .bcc _ => 0x90#8
  | .bcs _ => 0xB0#8
  | .beq _ => 0xF0#8
  | .bne _ => 0xD0#8
  | .bmi _ => 0x30#8
  | .bpl _ => 0x10#8
  | .bvc _ => 0x50#8
  | .bvs _ => 0x70#8
  | .adcImmediate _ => 0x69#8
  | .adcZeroPage _ => 0x65#8
  | .adcZeroPageX _ => 0x75#8
  | .adcAbsolute _ => 0x6D#8
  | .adcAbsoluteX _ => 0x7D#8
  | .adcAbsoluteY _ => 0x79#8
  | .adcIndirectX _ => 0x61#8
  | .adcIndirectY _ => 0x71#8
  | .sbcImmediate _ => 0xE9#8
  | .sbcZeroPage _ => 0xE5#8
  | .sbcZeroPageX _ => 0xF5#8
  | .sbcAbsolute _ => 0xED#8
  | .sbcAbsoluteX _ => 0xFD#8
  | .sbcAbsoluteY _ => 0xF9#8
  | .sbcIndirectX _ => 0xE1#8
  | .sbcIndirectY _ => 0xF1#8
  | .pha => 0x48#8
  | .php => 0x08#8
  | .pla => 0x68#8
  | .plp => 0x28#8
  | .jsr _ => 0x20#8
  | .rts => 0x60#8
  | .rti => 0x40#8
  | .unmapped op => op

/-- The bytes of an instruction: the opcode byte, then the operand bytes (R80, R84). -/
def encode (i : Instr) : List Byte :=
  i.opcode :: (match i.operand with
    | some o => o.bytes
    | none => [])

/-! ## Mnemonics -/

/-- The 36 mnemonics of R86, and `unmapped` for the table's rows UNMAPPED. -/
inductive Mnemonic where
  | lda | ldx | ldy | sta | stx | sty
  | tax | tay | tsx | txa | txs | tya
  | inc | dec | inx | iny | dex | dey
  | jmp | bcc | bcs | beq | bne | bmi | bpl | bvc | bvs
  | adc | sbc
  | pha | php | pla | plp | jsr | rts | rti
  | unmapped
deriving DecidableEq, Repr

/-- The mnemonic of an instruction's row. -/
def Instr.mnemonic : Instr → Mnemonic
  | .ldaImmediate _ | .ldaZeroPage _ | .ldaZeroPageX _ | .ldaAbsolute _ | .ldaAbsoluteX _ | .ldaAbsoluteY _ | .ldaIndirectX _ | .ldaIndirectY _ => .lda
  | .ldxImmediate _ | .ldxZeroPage _ | .ldxZeroPageY _ | .ldxAbsolute _ | .ldxAbsoluteY _ => .ldx
  | .ldyImmediate _ | .ldyZeroPage _ | .ldyZeroPageX _ | .ldyAbsolute _ | .ldyAbsoluteX _ => .ldy
  | .staZeroPage _ | .staZeroPageX _ | .staAbsolute _ | .staAbsoluteX _ | .staAbsoluteY _ | .staIndirectX _ | .staIndirectY _ => .sta
  | .stxZeroPage _ | .stxZeroPageY _ | .stxAbsolute _ => .stx
  | .styZeroPage _ | .styZeroPageX _ | .styAbsolute _ => .sty
  | .tax => .tax
  | .tay => .tay
  | .tsx => .tsx
  | .txa => .txa
  | .txs => .txs
  | .tya => .tya
  | .incZeroPage _ | .incZeroPageX _ | .incAbsolute _ | .incAbsoluteX _ => .inc
  | .decZeroPage _ | .decZeroPageX _ | .decAbsolute _ | .decAbsoluteX _ => .dec
  | .inx => .inx
  | .iny => .iny
  | .dex => .dex
  | .dey => .dey
  | .jmpAbsolute _ | .jmpIndirect _ => .jmp
  | .bcc _ => .bcc
  | .bcs _ => .bcs
  | .beq _ => .beq
  | .bne _ => .bne
  | .bmi _ => .bmi
  | .bpl _ => .bpl
  | .bvc _ => .bvc
  | .bvs _ => .bvs
  | .adcImmediate _ | .adcZeroPage _ | .adcZeroPageX _ | .adcAbsolute _ | .adcAbsoluteX _ | .adcAbsoluteY _ | .adcIndirectX _ | .adcIndirectY _ => .adc
  | .sbcImmediate _ | .sbcZeroPage _ | .sbcZeroPageX _ | .sbcAbsolute _ | .sbcAbsoluteX _ | .sbcAbsoluteY _ | .sbcIndirectX _ | .sbcIndirectY _ => .sbc
  | .pha => .pha
  | .php => .php
  | .pla => .pla
  | .plp => .plp
  | .jsr _ => .jsr
  | .rts => .rts
  | .rti => .rti
  | .unmapped _ => .unmapped

end Sys2Proof
end

