-- ==== Sys2Proof/Config.lean ====
section
/-! DEFINITION. What is fixed for the machine (00_scope.md R8) and what the spec leaves open as an argument of the model. -/

namespace Sys2Proof

/-- What a read of an address with no storage returns (20_memory.md R55). -/
abbrev Config.openBus : Byte := 0xFF#8

/-- DESIGN CHOICE (unsafe, log 1): what a storage byte that the memory list does not name reads as. The spec leaves the contents of
storage at reset open (INIT_RAM, INIT_PPU, INIT_APU; 10_state.md R37). -/
abbrev Config.unlistedByte : Byte := 0x00#8

/-- Bytes of RAM, of the PPU window, of the APU/IO window (20_memory.md R52, R53, R54). -/
abbrev Config.ramSize : Nat := 2048

@[inherit_doc Config.ramSize] abbrev Config.ppuSize : Nat := 8

@[inherit_doc Config.ramSize] abbrev Config.apuSize : Nat := 24

/-- The base of the stack page (10_state.md R26). -/
abbrev Config.stackBase : U16 := 0x0100#16

/-- DIAG (00_scope.md R7, decision D24): whether an implementation emits an "illegal opcode" diagnostic. OPEN: no value can be proved of it. -/
opaque Config.diag : Bool

end Sys2Proof
end

