-- ==== Sys2Proof/Machine/State.lean ====
section
/-! DEFINITION. The state (10_state.md R20), the reasons a step could stop for, and the state after reset (R37). -/

namespace Sys2Proof.Machine

/-- One storage array as (element index, byte) pairs in one canonical form (`Memory.wf`, Machine/Ops.lean): indices strictly rising,
no byte equal to `Config.unlistedByte`. -/
abbrev Memory := List Host.Cell

/-- An element of the two windows the peripheral agent shares with the CPU (00_scope.md R2). -/
inductive WindowElem where
  | ppu (i : Fin 8)
  | apu (i : Fin 24)
deriving DecidableEq, Repr

/-- One write of the peripheral agent (20_memory.md R65). -/
structure WindowWrite where
  elem  : WindowElem
  value : Byte
deriving DecidableEq, Repr

/-- What the peripheral agent writes in one gap between two ticks, oldest write first (20_memory.md R65). -/
abbrev PeripheralAction := List WindowWrite

/-- The complete state (R20), and with it the open input ENV (R65). -/
structure State where
  /-- A, the accumulator (R21). -/
  a : Byte
  /-- X, an index register (R22). -/
  x : Byte
  /-- Y, an index register (R23). -/
  y : Byte
  /-- S, the stack pointer (R26). -/
  s : Byte
  /-- P, the status register: N V - - D I Z C from bit 7 down (R27); bits 5 and 4 are hard-wired 0 (R32). -/
  p : Byte
  /-- PC, the program counter (R24). -/
  pc : U16
  /-- The clock cycles still owed by the instruction in flight (R35). -/
  remainingCycles : Nat
  /-- RAM[0..2047] (R36). -/
  ram : Memory
  /-- PPU[0..7], shared with the peripheral agent (R36). -/
  ppu : Memory
  /-- APU[0..23], shared with the peripheral agent (R36). -/
  apu : Memory
  /-- The MODEL's own field (log 2), for the open input ENV (R65): the peripheral agent's action in each coming gap between ticks, the next
  first; it writes nothing in the gaps after the last. -/
  env : List PeripheralAction
deriving DecidableEq, Repr

/-- The hardware raises no exception and no step of it is a fault (60_exceptions.md R220), so there is no reason to stop with one. -/
inductive Fault where
deriving DecidableEq, Repr

/-- Reasons to have no meaning for an instruction. -/
inductive Refusal where
  /-- Raised by an arm of `exec` whose instruction has no meaning yet; safe. No arm raises it: every instruction has its meaning. -/
  | notModelled (mnemonic : String)
deriving DecidableEq, Repr

/-- The state at creation (R37, R240) under the spec's open launch parameters: the contents of the three arrays (INIT_RAM, INIT_PPU, INIT_APU),
the PC the host sets before the first tick (ENTRY), and the peripheral agent's writes (ENV); 70_reset_and_hazards.md R241, R244. -/
def State.launch (initRam initPpu initApu : Memory) (entry : U16) (env : List PeripheralAction) : State where
  a := 0x00#8
  x := 0x00#8
  y := 0x00#8
  s := 0xFF#8
  p := 0x00#8
  pc := entry
  remainingCycles := 0
  ram := initRam
  ppu := initPpu
  apu := initApu
  env := env

/-- The state at creation with nothing preloaded: PC 0x0000 (R37), no storage byte listed (log 1), a silent peripheral agent (log 2). -/
def State.reset : State := State.launch [] [] [] 0x0000#16 []

end Sys2Proof.Machine
end

