-- ==== Sys2Proof/Machine/Ops.lean ====
section
/-! DEFINITION. The named operations over storage, the bus, the registers and the stack. The hardware takes no exception
(60_exceptions.md R224), so there is no operation for taking one; the return, RTI, stands in Machine/Stack.lean. -/

namespace Sys2Proof.Machine

/-! ## One storage array -/

/-- The byte of element `i`. -/
def Memory.read : Memory → Nat → Byte
  | [], _ => Config.unlistedByte
  | (k, v) :: m, i => if k = i then v else if i < k then Config.unlistedByte else Memory.read m i

/-- Every index of the list, if any, is above `i` (for a rising list). -/
def Memory.startsAbove (i : Nat) : Memory → Bool
  | [] => true
  | (k, _) :: _ => decide (i < k)

/-- The list with element `i` in front, left out when it would say what an unlisted element says anyway. -/
def Memory.push (i : Nat) (v : Byte) (m : Memory) : Memory :=
  if v = Config.unlistedByte ∧ Memory.startsAbove i m then m else (i, v) :: m

/-- The array with the byte of element `i` replaced. -/
def Memory.write : Memory → Nat → Byte → Memory
  | [], i, v => Memory.push i v []
  | (k, u) :: m, i, v =>
    if i < k then Memory.push i v ((k, u) :: m)
    else if i = k then Memory.push i v m
    else (k, u) :: Memory.write m i v

/-- The canonical form of an array of `size` elements: indices below `size` and strictly rising, no byte that an unlisted element reads as. -/
def Memory.wf (size : Nat) : Memory → Bool
  | [] => true
  | (k, v) :: m => decide (k < size) && (v != Config.unlistedByte) && Memory.startsAbove k m && Memory.wf size m

/-! ## The bus -/

/-- Where a bus address leads (20_memory.md R51). -/
inductive Route where
  | ram (i : Fin 2048)
  | ppu (i : Fin 8)
  | apu (i : Fin 24)
  | openBus
deriving DecidableEq, Repr

/-- The router (R51): exactly one of the four regions for every address (R50). -/
def route (a : U16) : Route :=
  if a.toNat < 0x2000 then .ram ⟨a.toNat % 0x0800, Nat.mod_lt _ (by decide)⟩
  else if a.toNat < 0x4000 then .ppu ⟨(a.toNat - 0x2000) % 8, Nat.mod_lt _ (by decide)⟩
  else if h : a.toNat - 0x4000 < 24 then .apu ⟨a.toNat - 0x4000, h⟩
  else .openBus

/-- `MemRead(a, 1)` (R56). -/
def State.read (s : State) (a : U16) : Byte :=
  match route a with
  | .ram i => Memory.read s.ram i.val
  | .ppu i => Memory.read s.ppu i.val
  | .apu i => Memory.read s.apu i.val
  | .openBus => Config.openBus

/-- `MemWrite(a, 1, v)` (R57). -/
def State.write (s : State) (a : U16) (v : Byte) : State :=
  match route a with
  | .ram i => { s with ram := Memory.write s.ram i.val v }
  | .ppu i => { s with ppu := Memory.write s.ppu i.val v }
  | .apu i => { s with apu := Memory.write s.apu i.val v }
  | .openBus => s

/-! ## Registers and the program counter -/

/-- Selector of an 8-bit register an instruction names (10_state.md R21, R22, R23, R26; 70_reset_and_hazards.md R253). -/
inductive Reg where
  | a | x | y | s
deriving DecidableEq, Repr

/-- The value of a register. -/
def State.reg (s : State) : Reg → Byte
  | .a => s.a
  | .x => s.x
  | .y => s.y
  | .s => s.s

/-- The state with a register written. -/
def State.setReg (s : State) (r : Reg) (v : Byte) : State :=
  match r with
  | .a => { s with a := v }
  | .x => { s with x := v }
  | .y => { s with y := v }
  | .s => { s with s := v }

/-- P written whole, bits 5 and 4 discarded (10_state.md R32; `v & 0xCF` of 46_stack_subroutine.md R195, R198). -/
def State.setStatus (s : State) (v : Byte) : State := { s with p := v &&& 0xCF#8 }

/-- The end of an instruction that transfers no control: PC past the instruction (10_state.md R25), `remainingCycles <- cost - 1`
(47_dispatch.md R202). -/
def State.advance (s : State) (len cost : Nat) : State :=
  { s with pc := s.pc + BitVec.ofNat 16 len, remainingCycles := cost - 1 }

/-- The end of a control transfer: PC at the target and nothing added (R25), `remainingCycles <- cost - 1` (R202). -/
def State.jumpTo (s : State) (target : U16) (cost : Nat) : State :=
  { s with pc := target, remainingCycles := cost - 1 }

/-! ## The stack -/

/-- The bus address that a stack pointer value names (10_state.md R26). -/
def stackAddress (sp : Byte) : U16 := Config.stackBase + sp.setWidth 16

/-- `Push(v)` (46_stack_subroutine.md R190): the write first, then the decrement, modulo 256. -/
def State.push (s : State) (v : Byte) : State :=
  { s.write (stackAddress s.s) v with s := s.s - 1 }

/-- The state after `Pull()` (R191): only S changes, incremented modulo 256. -/
def State.afterPull (s : State) : State := { s with s := s.s + 1 }

/-- The byte `Pull()` returns (R191): the one at the incremented S. -/
def State.pulled (s : State) : Byte := s.read (stackAddress (s.s + 1))

end Sys2Proof.Machine
end

