-- ==== Sys2Proof/Machine/Peripheral.lean ====
section
/-! DEFINITION. The peripheral agent (00_scope.md R2, 20_memory.md R65): it acts in the gaps between ticks, on the 32 window bytes only. -/

namespace Sys2Proof.Machine

/-- One write of the peripheral agent to a window byte. -/
def State.windowWrite (s : State) (w : WindowWrite) : State :=
  match w.elem with
  | .ppu i => { s with ppu := Memory.write s.ppu i.val w.value }
  | .apu i => { s with apu := Memory.write s.apu i.val w.value }

/-- The agent's writes of one gap, in order. -/
def State.windowWrites (s : State) (ws : PeripheralAction) : State := ws.foldl State.windowWrite s

/-- The gap after a tick: the agent's next action, if there is one (R65). -/
def State.gap (s : State) : State :=
  match s.env with
  | [] => s
  | ws :: rest => { s.windowWrites ws with env := rest }

end Sys2Proof.Machine
end

