-- ==== Sys2Proof/Machine/Flags.lean ====
section
/-! DEFINITION. The flag register (10_state.md R27 to R32) and every flag computation. -/

namespace Sys2Proof.Machine

/-- The six flags of P (R27). -/
inductive Flag where
  | n | v | d | i | z | c
deriving DecidableEq, Repr

/-- The bit of P that holds a flag (R27). -/
def Flag.bit : Flag → Nat
  | .n => 7
  | .v => 6
  | .d => 3
  | .i => 2
  | .z => 1
  | .c => 0

/-- A flag read as a boolean (R30). -/
def State.flag (s : State) (f : Flag) : Bool := s.p.getLsbD f.bit

/-- A status byte with one flag assigned and every other bit preserved (R28, R29, R30). -/
def setFlag (p : Byte) (f : Flag) (b : Bool) : Byte :=
  if b then p ||| (1#8 <<< f.bit) else p &&& ~~~(1#8 <<< f.bit)

/-- `setNegative(v)` (R28). -/
def setNegative (p v : Byte) : Byte := setFlag p .n (decide (0x7F < v.toNat))

/-- `setZero(v)` (R29). -/
def setZero (p v : Byte) : Byte := setFlag p .z (decide (v = 0))

/-- `setCarry(b)` (R30). -/
def setCarry (p : Byte) (b : Bool) : Byte := setFlag p .c b

/-- `setOverflow(b)` (R30). -/
def setOverflow (p : Byte) (b : Bool) : Byte := setFlag p .v b

/-- `SetNZ(v)` (R29): `setNegative`, then `setZero`. -/
def setNZ (p v : Byte) : Byte := setZero (setNegative p v) v

/-- `SetNZ(v)` on the state. -/
def State.setNZ (s : State) (v : Byte) : State := { s with p := Sys2Proof.Machine.setNZ s.p v }

/-! ## ADC and SBC (45_arith.md R181, R182) -/

/-- `sum = A + n + P.C`, an integer in 0..511. -/
def addSum (a n : Byte) (c : Bool) : Nat := a.toNat + n.toNat + c.toNat

/-- `r = sum mod 256`. -/
def addResult (a n : Byte) (c : Bool) : Byte := BitVec.ofNat 8 (addSum a n c)

/-- Carry out of bit 7: `sum > 255`. -/
def addCarry (a n : Byte) (c : Bool) : Bool := decide (255 < addSum a n c)

/-- Signed overflow: `((A ^ r) & (n ^ r) & 0x80) != 0`. -/
def addOverflow (a n : Byte) (c : Bool) : Bool :=
  let r := addResult a n c
  ((a ^^^ r) &&& (n ^^^ r) &&& 0x80#8) != 0

/-- C, V, N and Z after the addition; D and I preserved. -/
def addFlags (p a n : Byte) (c : Bool) : Byte :=
  setNZ (setOverflow (setCarry p (addCarry a n c)) (addOverflow a n c)) (addResult a n c)

end Sys2Proof.Machine
end

