-- ==== Sys2Proof/Machine/Operands.lean ====
section
/-! DEFINITION. The addressing-mode resolver (40_addressing.md): every operand form. -/

namespace Sys2Proof.Machine

/-- What the resolver returns (R123). -/
structure Resolved where
  /-- The effective address. -/
  ea : U16
  /-- Whether the address computation changed the page. -/
  crossed : Bool
deriving DecidableEq, Repr

/-- `zext_16` (00_scope.md R11): a zero-page address. -/
def zeroPageAddress (z : Byte) : U16 := z.setWidth 16

/-- The high bytes of two addresses differ. -/
def pagesDiffer (a b : U16) : Bool := (a &&& 0xFF00#16) != (b &&& 0xFF00#16)

/-- `Crossed(base, i)` on the full 16-bit base (R124). -/
def crossed (base : U16) (i : Byte) : Bool := pagesDiffer base (base + i.setWidth 16)

/-- `base + i` modulo 65536 and whether it crossed (R116, R117, R120). -/
def indexed (base : U16) (i : Byte) : Resolved := ⟨base + i.setWidth 16, crossed base i⟩

/-- The 16-bit little-endian value at a zero-page pointer, its high byte at the successor modulo 256 (R119, R120). -/
def zeroPagePointer (s : State) (z : Byte) : U16 :=
  word (s.read (zeroPageAddress (z + 1))) (s.read (zeroPageAddress z))

/-- The address of an Indirect pointer's high byte: the successor within the same page (R118). -/
def pointerHighAddress (ptr : U16) : U16 := (ptr &&& 0xFF00#16) ||| ((ptr + 1) &&& 0x00FF#16)

/-- `Resolve(mode, PC, X, Y)` (R123), the operand bytes having been assembled by the decoder. PC is the address of the opcode byte; nothing
is written. -/
def resolve (o : Operand) (s : State) : Resolved :=
  match o with
  | .implied => ⟨0, false⟩
  | .immediate _ => ⟨s.pc + 1, false⟩
  | .zeroPage z => ⟨zeroPageAddress z, false⟩
  | .zeroPageX z => ⟨zeroPageAddress (z + s.x), false⟩
  | .zeroPageY z => ⟨zeroPageAddress (z + s.y), false⟩
  | .absolute w => ⟨w, false⟩
  | .absoluteX w => indexed w s.x
  | .absoluteY w => indexed w s.y
  | .indirect w => ⟨word (s.read (pointerHighAddress w)) (s.read w), false⟩
  | .indirectX z => ⟨zeroPagePointer s (z + s.x), false⟩
  | .indirectY z => indexed (zeroPagePointer s z) s.y
  | .relative d => ⟨s.pc + 2 + d.signExtend 16, pagesDiffer (s.pc + 2) (s.pc + 2 + d.signExtend 16)⟩

/-- The datum an instruction reads at its effective address. An Immediate datum is the operand byte `b1` itself (R111), which is what the bus
holds at `PC + 1` in a fetch tick (log 5). -/
def operandValue (o : Operand) (s : State) : Byte :=
  match o with
  | .immediate v => v
  | .implied | .zeroPage _ | .zeroPageX _ | .zeroPageY _ | .absolute _ | .absoluteX _ | .absoluteY _ | .indirect _
  | .indirectX _ | .indirectY _ | .relative _ => s.read (resolve o s).ea

/-- The cycle a page crossing adds where it is owed (47_dispatch.md R206, R207). -/
def pageCross (o : Operand) (s : State) : Nat := (resolve o s).crossed.toNat

end Sys2Proof.Machine
end

