-- ==== Sys2Proof/Machine/Arith.lean ====
section
/-! DEFINITION. ADC, SBC (45_arith.md). Always binary: D is not consulted (R180). -/

namespace Sys2Proof.Machine

/-- ADC and SBC (R180): the accumulator, N, V, Z and C from the sum of A, `n` and the carry flag, PC past the instruction; read class.
`n` is the byte for ADC (R181) and its one's complement for SBC (R182). -/
def addToA (n : Byte) (o : Operand) (base : Nat) (s : State) : State :=
  let r := addResult s.a n (s.flag .c)
  { (s.setReg .a r) with p := addFlags s.p s.a n (s.flag .c) }.advance o.length (base + pageCross o s)

/-- ADC (R181). -/
def adc (o : Operand) (base : Nat) (s : State) : State :=
  addToA (operandValue o s) o base s

/-- SBC (R182): exactly ADC with the one's complement of the byte. -/
def sbc (o : Operand) (base : Nat) (s : State) : State :=
  addToA (operandValue o s ^^^ 0xFF#8) o base s

/-- ADC #v (Immediate, 0x69, 2 cycles; R181). -/
def execAdcImmediate (v : Byte) (s : State) : Host.Outcome State Fault Refusal :=
  .next (adc (.immediate v) 2 s)

/-- ADC z (ZeroPage, 0x65, 3 cycles; R181). -/
def execAdcZeroPage (z : Byte) (s : State) : Host.Outcome State Fault Refusal :=
  .next (adc (.zeroPage z) 3 s)

/-- ADC z,X (ZeroPageX, 0x75, 4 cycles; R181). -/
def execAdcZeroPageX (z : Byte) (s : State) : Host.Outcome State Fault Refusal :=
  .next (adc (.zeroPageX z) 4 s)

/-- ADC w (Absolute, 0x6D, 4 cycles; R181). -/
def execAdcAbsolute (w : U16) (s : State) : Host.Outcome State Fault Refusal :=
  .next (adc (.absolute w) 4 s)

/-- ADC w,X (AbsoluteX, 0x7D, 4 cycles (+1 if crossed); R181). -/
def execAdcAbsoluteX (w : U16) (s : State) : Host.Outcome State Fault Refusal :=
  .next (adc (.absoluteX w) 4 s)

/-- ADC w,Y (AbsoluteY, 0x79, 4 cycles (+1 if crossed); R181). -/
def execAdcAbsoluteY (w : U16) (s : State) : Host.Outcome State Fault Refusal :=
  .next (adc (.absoluteY w) 4 s)

/-- ADC (z,X) (IndirectX, 0x61, 6 cycles; R181). -/
def execAdcIndirectX (z : Byte) (s : State) : Host.Outcome State Fault Refusal :=
  .next (adc (.indirectX z) 6 s)

/-- ADC (z),Y (IndirectY, 0x71, 5 cycles (+1 if crossed); R181). -/
def execAdcIndirectY (z : Byte) (s : State) : Host.Outcome State Fault Refusal :=
  .next (adc (.indirectY z) 5 s)

/-- SBC #v (Immediate, 0xE9, 2 cycles; R182). -/
def execSbcImmediate (v : Byte) (s : State) : Host.Outcome State Fault Refusal :=
  .next (sbc (.immediate v) 2 s)

/-- SBC z (ZeroPage, 0xE5, 3 cycles; R182). -/
def execSbcZeroPage (z : Byte) (s : State) : Host.Outcome State Fault Refusal :=
  .next (sbc (.zeroPage z) 3 s)

/-- SBC z,X (ZeroPageX, 0xF5, 4 cycles; R182). -/
def execSbcZeroPageX (z : Byte) (s : State) : Host.Outcome State Fault Refusal :=
  .next (sbc (.zeroPageX z) 4 s)

/-- SBC w (Absolute, 0xED, 4 cycles; R182). -/
def execSbcAbsolute (w : U16) (s : State) : Host.Outcome State Fault Refusal :=
  .next (sbc (.absolute w) 4 s)

/-- SBC w,X (AbsoluteX, 0xFD, 4 cycles (+1 if crossed); R182). -/
def execSbcAbsoluteX (w : U16) (s : State) : Host.Outcome State Fault Refusal :=
  .next (sbc (.absoluteX w) 4 s)

/-- SBC w,Y (AbsoluteY, 0xF9, 4 cycles (+1 if crossed); R182). -/
def execSbcAbsoluteY (w : U16) (s : State) : Host.Outcome State Fault Refusal :=
  .next (sbc (.absoluteY w) 4 s)

/-- SBC (z,X) (IndirectX, 0xE1, 6 cycles; R182). -/
def execSbcIndirectX (z : Byte) (s : State) : Host.Outcome State Fault Refusal :=
  .next (sbc (.indirectX z) 6 s)

/-- SBC (z),Y (IndirectY, 0xF1, 5 cycles (+1 if crossed); R182). -/
def execSbcIndirectY (z : Byte) (s : State) : Host.Outcome State Fault Refusal :=
  .next (sbc (.indirectY z) 5 s)

end Sys2Proof.Machine
end

