-- ==== Sys2Proof/Machine/IncDec.lean ====
section
/-! DEFINITION. INC, DEC, INX, INY, DEX, DEY (43_incdec.md). -/

namespace Sys2Proof.Machine

/-- `inc8(v) = (v + 1) mod 256` (R150). -/
def inc8 (v : Byte) : Byte := v + 1

/-- `dec8(v) = (v + 255) mod 256` (R150). -/
def dec8 (v : Byte) : Byte := v + 255

/-- The memory form (R150): one read, then one write of the new value at the same address, N and Z from the new value;
read-modify-write class, no page-cross addition (R206). -/
def modifyMemory (f : Byte → Byte) (o : Operand) (base : Nat) (s : State) : State :=
  let ea := (resolve o s).ea
  let r := f (s.read ea)
  ((s.write ea r).setNZ r).advance o.length base

/-- The register form (R150): the same arithmetic directly on a register. -/
def modifyRegister (f : Byte → Byte) (r : Reg) (s : State) : State :=
  let v := f (s.reg r)
  ((s.setReg r v).setNZ v).advance Mode.implied.length 2

/-- INC z (ZeroPage, 0xE6, 5 cycles; R151). -/
def execIncZeroPage (z : Byte) (s : State) : Host.Outcome State Fault Refusal :=
  .next (modifyMemory inc8 (.zeroPage z) 5 s)

/-- INC z,X (ZeroPageX, 0xF6, 6 cycles; R151). -/
def execIncZeroPageX (z : Byte) (s : State) : Host.Outcome State Fault Refusal :=
  .next (modifyMemory inc8 (.zeroPageX z) 6 s)

/-- INC w (Absolute, 0xEE, 6 cycles; R151). -/
def execIncAbsolute (w : U16) (s : State) : Host.Outcome State Fault Refusal :=
  .next (modifyMemory inc8 (.absolute w) 6 s)

/-- INC w,X (AbsoluteX, 0xFE, 7 cycles; R151). -/
def execIncAbsoluteX (w : U16) (s : State) : Host.Outcome State Fault Refusal :=
  .next (modifyMemory inc8 (.absoluteX w) 7 s)

/-- DEC z (ZeroPage, 0xC6, 5 cycles; R152). -/
def execDecZeroPage (z : Byte) (s : State) : Host.Outcome State Fault Refusal :=
  .next (modifyMemory dec8 (.zeroPage z) 5 s)

/-- DEC z,X (ZeroPageX, 0xD6, 6 cycles; R152). -/
def execDecZeroPageX (z : Byte) (s : State) : Host.Outcome State Fault Refusal :=
  .next (modifyMemory dec8 (.zeroPageX z) 6 s)

/-- DEC w (Absolute, 0xCE, 6 cycles; R152). -/
def execDecAbsolute (w : U16) (s : State) : Host.Outcome State Fault Refusal :=
  .next (modifyMemory dec8 (.absolute w) 6 s)

/-- DEC w,X (AbsoluteX, 0xDE, 7 cycles; R152). -/
def execDecAbsoluteX (w : U16) (s : State) : Host.Outcome State Fault Refusal :=
  .next (modifyMemory dec8 (.absoluteX w) 7 s)

/-- INX (Implied, 0xE8, 2 cycles; R153). -/
def execInx (s : State) : Host.Outcome State Fault Refusal :=
  .next (modifyRegister inc8 .x s)

/-- INY (Implied, 0xC8, 2 cycles; R154). -/
def execIny (s : State) : Host.Outcome State Fault Refusal :=
  .next (modifyRegister inc8 .y s)

/-- DEX (Implied, 0xCA, 2 cycles; R155). -/
def execDex (s : State) : Host.Outcome State Fault Refusal :=
  .next (modifyRegister dec8 .x s)

/-- DEY (Implied, 0x88, 2 cycles; R156). -/
def execDey (s : State) : Host.Outcome State Fault Refusal :=
  .next (modifyRegister dec8 .y s)

end Sys2Proof.Machine
end

