-- ==== Sys2Proof/Machine/JumpBranch.lean ====
section
/-! DEFINITION. JMP, BCC, BCS, BEQ, BNE, BMI, BPL, BVC, BVS (44_jump_branch.md). -/

namespace Sys2Proof.Machine

/-- JMP (R160): PC becomes the resolved effective address; the length is not added, no flag changes. -/
def jump (o : Operand) (base : Nat) (s : State) : State :=
  s.jumpTo (resolve o s).ea base

/-- A branch (R161, R207): to the Relative target when the condition holds, for 3 cycles or 4 when that crosses a page; past the
instruction otherwise, for 2. -/
def branch (cond : Bool) (d : Byte) (s : State) : State :=
  if cond then s.jumpTo (resolve (.relative d) s).ea (3 + pageCross (.relative d) s)
  else s.advance Mode.relative.length 2

/-- JMP w (Absolute, 0x4C, 3 cycles; R160). -/
def execJmpAbsolute (w : U16) (s : State) : Host.Outcome State Fault Refusal :=
  .next (jump (.absolute w) 3 s)

/-- JMP (w) (Indirect, 0x6C, 5 cycles; R160). -/
def execJmpIndirect (w : U16) (s : State) : Host.Outcome State Fault Refusal :=
  .next (jump (.indirect w) 5 s)

/-- BCC d (Relative, 0x90, 2 cycles, 3 taken, 4 taken and crossed; R162). -/
def execBcc (d : Byte) (s : State) : Host.Outcome State Fault Refusal :=
  .next (branch (!s.flag .c) d s)

/-- BCS d (Relative, 0xB0, 2 cycles, 3 taken, 4 taken and crossed; R163). -/
def execBcs (d : Byte) (s : State) : Host.Outcome State Fault Refusal :=
  .next (branch (s.flag .c) d s)

/-- BEQ d (Relative, 0xF0, 2 cycles, 3 taken, 4 taken and crossed; R164). -/
def execBeq (d : Byte) (s : State) : Host.Outcome State Fault Refusal :=
  .next (branch (s.flag .z) d s)

/-- BNE d (Relative, 0xD0, 2 cycles, 3 taken, 4 taken and crossed; R165). -/
def execBne (d : Byte) (s : State) : Host.Outcome State Fault Refusal :=
  .next (branch (!s.flag .z) d s)

/-- BMI d (Relative, 0x30, 2 cycles, 3 taken, 4 taken and crossed; R166). -/
def execBmi (d : Byte) (s : State) : Host.Outcome State Fault Refusal :=
  .next (branch (s.flag .n) d s)

/-- BPL d (Relative, 0x10, 2 cycles, 3 taken, 4 taken and crossed; R167). -/
def execBpl (d : Byte) (s : State) : Host.Outcome State Fault Refusal :=
  .next (branch (!s.flag .n) d s)

/-- BVC d (Relative, 0x50, 2 cycles, 3 taken, 4 taken and crossed; R168). -/
def execBvc (d : Byte) (s : State) : Host.Outcome State Fault Refusal :=
  .next (branch (!s.flag .v) d s)

/-- BVS d (Relative, 0x70, 2 cycles, 3 taken, 4 taken and crossed; R169). -/
def execBvs (d : Byte) (s : State) : Host.Outcome State Fault Refusal :=
  .next (branch (s.flag .v) d s)

end Sys2Proof.Machine
end

