-- ==== Sys2Proof/Machine/LoadStore.lean ====
section
/-! DEFINITION. LDA, LDX, LDY, STA, STX, STY (41_load_store.md). The numbers are the base cycles of 30_encoding.md R86. -/

namespace Sys2Proof.Machine

/-- A load (R130): one byte at the effective address into the target register, N and Z from it, PC past the instruction; a
read-class cost, one more when the resolver crossed a page (R206). -/
def load (r : Reg) (o : Operand) (base : Nat) (s : State) : State :=
  let v := operandValue o s
  ((s.setReg r v).setNZ v).advance o.length (base + pageCross o s)

/-- A store (R130): the source register to the effective address, no flag; a write-class cost, never increased (R206). -/
def store (r : Reg) (o : Operand) (base : Nat) (s : State) : State :=
  (s.write (resolve o s).ea (s.reg r)).advance o.length base

/-- LDA #v (Immediate, 0xA9, 2 cycles; R131). -/
def execLdaImmediate (v : Byte) (s : State) : Host.Outcome State Fault Refusal :=
  .next (load .a (.immediate v) 2 s)

/-- LDA z (ZeroPage, 0xA5, 3 cycles; R131). -/
def execLdaZeroPage (z : Byte) (s : State) : Host.Outcome State Fault Refusal :=
  .next (load .a (.zeroPage z) 3 s)

/-- LDA z,X (ZeroPageX, 0xB5, 4 cycles; R131). -/
def execLdaZeroPageX (z : Byte) (s : State) : Host.Outcome State Fault Refusal :=
  .next (load .a (.zeroPageX z) 4 s)

/-- LDA w (Absolute, 0xAD, 4 cycles; R131). -/
def execLdaAbsolute (w : U16) (s : State) : Host.Outcome State Fault Refusal :=
  .next (load .a (.absolute w) 4 s)

/-- LDA w,X (AbsoluteX, 0xBD, 4 cycles (+1 if crossed); R131). -/
def execLdaAbsoluteX (w : U16) (s : State) : Host.Outcome State Fault Refusal :=
  .next (load .a (.absoluteX w) 4 s)

/-- LDA w,Y (AbsoluteY, 0xB9, 4 cycles (+1 if crossed); R131). -/
def execLdaAbsoluteY (w : U16) (s : State) : Host.Outcome State Fault Refusal :=
  .next (load .a (.absoluteY w) 4 s)

/-- LDA (z,X) (IndirectX, 0xA1, 6 cycles; R131). -/
def execLdaIndirectX (z : Byte) (s : State) : Host.Outcome State Fault Refusal :=
  .next (load .a (.indirectX z) 6 s)

/-- LDA (z),Y (IndirectY, 0xB1, 5 cycles (+1 if crossed); R131). -/
def execLdaIndirectY (z : Byte) (s : State) : Host.Outcome State Fault Refusal :=
  .next (load .a (.indirectY z) 5 s)

/-- LDX #v (Immediate, 0xA2, 2 cycles; R132). -/
def execLdxImmediate (v : Byte) (s : State) : Host.Outcome State Fault Refusal :=
  .next (load .x (.immediate v) 2 s)

/-- LDX z (ZeroPage, 0xA6, 3 cycles; R132). -/
def execLdxZeroPage (z : Byte) (s : State) : Host.Outcome State Fault Refusal :=
  .next (load .x (.zeroPage z) 3 s)

/-- LDX z,Y (ZeroPageY, 0xB6, 4 cycles; R132). -/
def execLdxZeroPageY (z : Byte) (s : State) : Host.Outcome State Fault Refusal :=
  .next (load .x (.zeroPageY z) 4 s)

/-- LDX w (Absolute, 0xAE, 4 cycles; R132). -/
def execLdxAbsolute (w : U16) (s : State) : Host.Outcome State Fault Refusal :=
  .next (load .x (.absolute w) 4 s)

/-- LDX w,Y (AbsoluteY, 0xBE, 4 cycles (+1 if crossed); R132). -/
def execLdxAbsoluteY (w : U16) (s : State) : Host.Outcome State Fault Refusal :=
  .next (load .x (.absoluteY w) 4 s)

/-- LDY #v (Immediate, 0xA0, 2 cycles; R133). -/
def execLdyImmediate (v : Byte) (s : State) : Host.Outcome State Fault Refusal :=
  .next (load .y (.immediate v) 2 s)

/-- LDY z (ZeroPage, 0xA4, 3 cycles; R133). -/
def execLdyZeroPage (z : Byte) (s : State) : Host.Outcome State Fault Refusal :=
  .next (load .y (.zeroPage z) 3 s)

/-- LDY z,X (ZeroPageX, 0xB4, 4 cycles; R133). -/
def execLdyZeroPageX (z : Byte) (s : State) : Host.Outcome State Fault Refusal :=
  .next (load .y (.zeroPageX z) 4 s)

/-- LDY w (Absolute, 0xAC, 4 cycles; R133). -/
def execLdyAbsolute (w : U16) (s : State) : Host.Outcome State Fault Refusal :=
  .next (load .y (.absolute w) 4 s)

/-- LDY w,X (AbsoluteX, 0xBC, 4 cycles (+1 if crossed); R133). -/
def execLdyAbsoluteX (w : U16) (s : State) : Host.Outcome State Fault Refusal :=
  .next (load .y (.absoluteX w) 4 s)

/-- STA z (ZeroPage, 0x85, 3 cycles; R134). -/
def execStaZeroPage (z : Byte) (s : State) : Host.Outcome State Fault Refusal :=
  .next (store .a (.zeroPage z) 3 s)

/-- STA z,X (ZeroPageX, 0x95, 4 cycles; R134). -/
def execStaZeroPageX (z : Byte) (s : State) : Host.Outcome State Fault Refusal :=
  .next (store .a (.zeroPageX z) 4 s)

/-- STA w (Absolute, 0x8D, 4 cycles; R134). -/
def execStaAbsolute (w : U16) (s : State) : Host.Outcome State Fault Refusal :=
  .next (store .a (.absolute w) 4 s)

/-- STA w,X (AbsoluteX, 0x9D, 5 cycles; R134). -/
def execStaAbsoluteX (w : U16) (s : State) : Host.Outcome State Fault Refusal :=
  .next (store .a (.absoluteX w) 5 s)

/-- STA w,Y (AbsoluteY, 0x99, 5 cycles; R134). -/
def execStaAbsoluteY (w : U16) (s : State) : Host.Outcome State Fault Refusal :=
  .next (store .a (.absoluteY w) 5 s)

/-- STA (z,X) (IndirectX, 0x81, 6 cycles; R134). -/
def execStaIndirectX (z : Byte) (s : State) : Host.Outcome State Fault Refusal :=
  .next (store .a (.indirectX z) 6 s)

/-- STA (z),Y (IndirectY, 0x91, 6 cycles; R134). -/
def execStaIndirectY (z : Byte) (s : State) : Host.Outcome State Fault Refusal :=
  .next (store .a (.indirectY z) 6 s)

/-- STX z (ZeroPage, 0x86, 3 cycles; R135). -/
def execStxZeroPage (z : Byte) (s : State) : Host.Outcome State Fault Refusal :=
  .next (store .x (.zeroPage z) 3 s)

/-- STX z,Y (ZeroPageY, 0x96, 4 cycles; R135). -/
def execStxZeroPageY (z : Byte) (s : State) : Host.Outcome State Fault Refusal :=
  .next (store .x (.zeroPageY z) 4 s)

/-- STX w (Absolute, 0x8E, 4 cycles; R135). -/
def execStxAbsolute (w : U16) (s : State) : Host.Outcome State Fault Refusal :=
  .next (store .x (.absolute w) 4 s)

/-- STY z (ZeroPage, 0x84, 3 cycles; R136). -/
def execStyZeroPage (z : Byte) (s : State) : Host.Outcome State Fault Refusal :=
  .next (store .y (.zeroPage z) 3 s)

/-- STY z,X (ZeroPageX, 0x94, 4 cycles; R136). -/
def execStyZeroPageX (z : Byte) (s : State) : Host.Outcome State Fault Refusal :=
  .next (store .y (.zeroPageX z) 4 s)

/-- STY w (Absolute, 0x8C, 4 cycles; R136). -/
def execStyAbsolute (w : U16) (s : State) : Host.Outcome State Fault Refusal :=
  .next (store .y (.absolute w) 4 s)

end Sys2Proof.Machine
end

