-- ==== Sys2Proof/Machine/Stack.lean ====
section
/-! DEFINITION. PHA, PHP, PLA, PLP, JSR, RTS, RTI (46_stack_subroutine.md). -/

namespace Sys2Proof.Machine

/-- JSR (R196): pushes the address of its own last byte, high byte first, and jumps. The target is part of the instruction, read
before either push. -/
def callSubroutine (target : U16) (base : Nat) (s : State) : State :=
  let ret := s.pc + 2
  ((s.push (hiByte ret)).push (loByte ret)).jumpTo target base

/-- RTS (R197): pulls the low byte, then the high byte, and continues one past that address. -/
def returnFromSubroutine (base : Nat) (s : State) : State :=
  s.afterPull.afterPull.jumpTo (word s.afterPull.pulled s.pulled + 1) base

/-- RTI (R198, R225), the hardware's only trap return, although nothing enters a trap (60_exceptions.md R224): pulls P, then PC low, then
PC high; nothing is added, no mode changes. -/
def returnFromInterrupt (base : Nat) (s : State) : State :=
  let s1 := s.afterPull
  let s2 := s1.afterPull
  (s2.afterPull.setStatus s.pulled).jumpTo (word s2.pulled s1.pulled) base

/-- PHA (Implied, 0x48, 3 cycles; R192). -/
def execPha (s : State) : Host.Outcome State Fault Refusal :=
  .next ((s.push s.a).advance Mode.implied.length 3)

/-- PHP (Implied, 0x08, 3 cycles; R193). -/
def execPhp (s : State) : Host.Outcome State Fault Refusal :=
  .next ((s.push (s.p ||| 0x30#8)).advance Mode.implied.length 3)

/-- PLA (Implied, 0x68, 4 cycles; R194). -/
def execPla (s : State) : Host.Outcome State Fault Refusal :=
  .next (((s.afterPull.setReg .a s.pulled).setNZ s.pulled).advance Mode.implied.length 4)

/-- PLP (Implied, 0x28, 4 cycles; R195). -/
def execPlp (s : State) : Host.Outcome State Fault Refusal :=
  .next ((s.afterPull.setStatus s.pulled).advance Mode.implied.length 4)

/-- JSR w (Absolute, 0x20, 6 cycles; R196). -/
def execJsr (w : U16) (s : State) : Host.Outcome State Fault Refusal :=
  .next (callSubroutine w 6 s)

/-- RTS (Implied, 0x60, 6 cycles; R197). -/
def execRts (s : State) : Host.Outcome State Fault Refusal :=
  .next (returnFromSubroutine 6 s)

/-- RTI (Implied, 0x40, 6 cycles; R198). -/
def execRti (s : State) : Host.Outcome State Fault Refusal :=
  .next (returnFromInterrupt 6 s)

end Sys2Proof.Machine
end

