-- ==== Sys2Proof/Machine/Transfer.lean ====
section
/-! DEFINITION. TAX, TAY, TSX, TXA, TXS, TYA (42_transfer.md). -/

namespace Sys2Proof.Machine

/-- A transfer (R140): the source register copied to the destination, N and Z from the copied value. -/
def transfer (src dst : Reg) (s : State) : State :=
  ((s.setReg dst (s.reg src)).setNZ (s.reg src)).advance Mode.implied.length 2

/-- The transfer into the stack pointer (R140, R145): no flag is set. -/
def transferToStack (src : Reg) (s : State) : State :=
  (s.setReg .s (s.reg src)).advance Mode.implied.length 2

/-- TAX (Implied, 0xAA, 2 cycles; R141). -/
def execTax (s : State) : Host.Outcome State Fault Refusal :=
  .next (transfer .a .x s)

/-- TAY (Implied, 0xA8, 2 cycles; R142). -/
def execTay (s : State) : Host.Outcome State Fault Refusal :=
  .next (transfer .a .y s)

/-- TSX (Implied, 0xBA, 2 cycles; R143). -/
def execTsx (s : State) : Host.Outcome State Fault Refusal :=
  .next (transfer .s .x s)

/-- TXA (Implied, 0x8A, 2 cycles; R144). -/
def execTxa (s : State) : Host.Outcome State Fault Refusal :=
  .next (transfer .x .a s)

/-- TXS (Implied, 0x9A, 2 cycles; R145). -/
def execTxs (s : State) : Host.Outcome State Fault Refusal :=
  .next (transferToStack .x s)

/-- TYA (Implied, 0x98, 2 cycles; R146). -/
def execTya (s : State) : Host.Outcome State Fault Refusal :=
  .next (transfer .y .a s)

end Sys2Proof.Machine
end

