-- ==== Sys2Proof/Machine/Unmapped.lean ====
section
/-! DEFINITION. An opcode byte with no entry in the opcode table (47_dispatch.md R203). -/

namespace Sys2Proof.Machine

/-- The tick changes no state at all: PC is not advanced and `remainingCycles` stays 0 (R203). It neither traps nor halts
(60_exceptions.md R220, R221). -/
def execUnmapped (_op : Byte) (s : State) : Host.Outcome State Fault Refusal :=
  .next s

end Sys2Proof.Machine
end

