-- ==== Sys2Proof/Machine/Dispatch.lean ====
section
/-! DEFINITION. One arm per constructor of `Instr`, each one call of that instruction's meaning (the step
`Exec(instr, mode, ea)` and `remainingCycles <- cost - 1` of 47_dispatch.md R202; for an unmapped byte R203). -/

namespace Sys2Proof.Machine

def exec (i : Instr) (s : State) : Host.Outcome State Fault Refusal :=
  match i with
  -- load and store (41_load_store.md, R131 to R136)
  | .ldaImmediate v => Sys2Proof.Machine.execLdaImmediate v s
  | .ldaZeroPage z => Sys2Proof.Machine.execLdaZeroPage z s
  | .ldaZeroPageX z => Sys2Proof.Machine.execLdaZeroPageX z s
  | .ldaAbsolute w => Sys2Proof.Machine.execLdaAbsolute w s
  | .ldaAbsoluteX w => Sys2Proof.Machine.execLdaAbsoluteX w s
  | .ldaAbsoluteY w => Sys2Proof.Machine.execLdaAbsoluteY w s
  | .ldaIndirectX z => Sys2Proof.Machine.execLdaIndirectX z s
  | .ldaIndirectY z => Sys2Proof.Machine.execLdaIndirectY z s
  | .ldxImmediate v => Sys2Proof.Machine.execLdxImmediate v s
  | .ldxZeroPage z => Sys2Proof.Machine.execLdxZeroPage z s
  | .ldxZeroPageY z => Sys2Proof.Machine.execLdxZeroPageY z s
  | .ldxAbsolute w => Sys2Proof.Machine.execLdxAbsolute w s
  | .ldxAbsoluteY w => Sys2Proof.Machine.execLdxAbsoluteY w s
  | .ldyImmediate v => Sys2Proof.Machine.execLdyImmediate v s
  | .ldyZeroPage z => Sys2Proof.Machine.execLdyZeroPage z s
  | .ldyZeroPageX z => Sys2Proof.Machine.execLdyZeroPageX z s
  | .ldyAbsolute w => Sys2Proof.Machine.execLdyAbsolute w s
  | .ldyAbsoluteX w => Sys2Proof.Machine.execLdyAbsoluteX w s
  | .staZeroPage z => Sys2Proof.Machine.execStaZeroPage z s
  | .staZeroPageX z => Sys2Proof.Machine.execStaZeroPageX z s
  | .staAbsolute w => Sys2Proof.Machine.execStaAbsolute w s
  | .staAbsoluteX w => Sys2Proof.Machine.execStaAbsoluteX w s
  | .staAbsoluteY w => Sys2Proof.Machine.execStaAbsoluteY w s
  | .staIndirectX z => Sys2Proof.Machine.execStaIndirectX z s
  | .staIndirectY z => Sys2Proof.Machine.execStaIndirectY z s
  | .stxZeroPage z => Sys2Proof.Machine.execStxZeroPage z s
  | .stxZeroPageY z => Sys2Proof.Machine.execStxZeroPageY z s
  | .stxAbsolute w => Sys2Proof.Machine.execStxAbsolute w s
  | .styZeroPage z => Sys2Proof.Machine.execStyZeroPage z s
  | .styZeroPageX z => Sys2Proof.Machine.execStyZeroPageX z s
  | .styAbsolute w => Sys2Proof.Machine.execStyAbsolute w s
  -- register transfers (42_transfer.md, R141 to R146)
  | .tax => Sys2Proof.Machine.execTax s
  | .tay => Sys2Proof.Machine.execTay s
  | .tsx => Sys2Proof.Machine.execTsx s
  | .txa => Sys2Proof.Machine.execTxa s
  | .txs => Sys2Proof.Machine.execTxs s
  | .tya => Sys2Proof.Machine.execTya s
  -- increment and decrement (43_incdec.md, R151 to R156)
  | .incZeroPage z => Sys2Proof.Machine.execIncZeroPage z s
  | .incZeroPageX z => Sys2Proof.Machine.execIncZeroPageX z s
  | .incAbsolute w => Sys2Proof.Machine.execIncAbsolute w s
  | .incAbsoluteX w => Sys2Proof.Machine.execIncAbsoluteX w s
  | .decZeroPage z => Sys2Proof.Machine.execDecZeroPage z s
  | .decZeroPageX z => Sys2Proof.Machine.execDecZeroPageX z s
  | .decAbsolute w => Sys2Proof.Machine.execDecAbsolute w s
  | .decAbsoluteX w => Sys2Proof.Machine.execDecAbsoluteX w s
  | .inx => Sys2Proof.Machine.execInx s
  | .iny => Sys2Proof.Machine.execIny s
  | .dex => Sys2Proof.Machine.execDex s
  | .dey => Sys2Proof.Machine.execDey s
  -- jump and branches (44_jump_branch.md, R160 to R169)
  | .jmpAbsolute w => Sys2Proof.Machine.execJmpAbsolute w s
  | .jmpIndirect w => Sys2Proof.Machine.execJmpIndirect w s
  | .bcc d => Sys2Proof.Machine.execBcc d s
  | .bcs d => Sys2Proof.Machine.execBcs d s
  | .beq d => Sys2Proof.Machine.execBeq d s
  | .bne d => Sys2Proof.Machine.execBne d s
  | .bmi d => Sys2Proof.Machine.execBmi d s
  | .bpl d => Sys2Proof.Machine.execBpl d s
  | .bvc d => Sys2Proof.Machine.execBvc d s
  | .bvs d => Sys2Proof.Machine.execBvs d s
  -- add and subtract with carry (45_arith.md, R181, R182)
  | .adcImmediate v => Sys2Proof.Machine.execAdcImmediate v s
  | .adcZeroPage z => Sys2Proof.Machine.execAdcZeroPage z s
  | .adcZeroPageX z => Sys2Proof.Machine.execAdcZeroPageX z s
  | .adcAbsolute w => Sys2Proof.Machine.execAdcAbsolute w s
  | .adcAbsoluteX w => Sys2Proof.Machine.execAdcAbsoluteX w s
  | .adcAbsoluteY w => Sys2Proof.Machine.execAdcAbsoluteY w s
  | .adcIndirectX z => Sys2Proof.Machine.execAdcIndirectX z s
  | .adcIndirectY z => Sys2Proof.Machine.execAdcIndirectY z s
  | .sbcImmediate v => Sys2Proof.Machine.execSbcImmediate v s
  | .sbcZeroPage z => Sys2Proof.Machine.execSbcZeroPage z s
  | .sbcZeroPageX z => Sys2Proof.Machine.execSbcZeroPageX z s
  | .sbcAbsolute w => Sys2Proof.Machine.execSbcAbsolute w s
  | .sbcAbsoluteX w => Sys2Proof.Machine.execSbcAbsoluteX w s
  | .sbcAbsoluteY w => Sys2Proof.Machine.execSbcAbsoluteY w s
  | .sbcIndirectX z => Sys2Proof.Machine.execSbcIndirectX z s
  | .sbcIndirectY z => Sys2Proof.Machine.execSbcIndirectY z s
  -- stack and subroutine (46_stack_subroutine.md, R192 to R198)
  | .pha => Sys2Proof.Machine.execPha s
  | .php => Sys2Proof.Machine.execPhp s
  | .pla => Sys2Proof.Machine.execPla s
  | .plp => Sys2Proof.Machine.execPlp s
  | .jsr w => Sys2Proof.Machine.execJsr w s
  | .rts => Sys2Proof.Machine.execRts s
  | .rti => Sys2Proof.Machine.execRti s
  -- unmapped bytes (47_dispatch.md R203)
  | .unmapped op => Sys2Proof.Machine.execUnmapped op s

end Sys2Proof.Machine
end

