-- ==== Sys2Proof/Machine/Tick.lean ====
section
/-! DEFINITION. `tick`, the only step of the CPU (47_dispatch.md R200), the optional diagnostic, and placing an instruction where the next
tick fetches it. -/

namespace Sys2Proof.Machine

/-- The instruction at PC: the opcode byte and the bytes after it, read through the bus (R200; 30_encoding.md R84). That a shorter instruction's
next bytes are read too cannot be observed (00_scope.md R12). -/
def State.fetched (s : State) : Instr :=
  decodeOp (s.read s.pc) (s.read (s.pc + 1)) (s.read (s.pc + 2))

/-- Drain tick (R204). -/
def State.drain (s : State) : State := { s with remainingCycles := s.remainingCycles - 1 }

/-- `tick()` (R200, R201): a drain tick while cycles are owed, else a fetch tick (R202, R203). -/
def tick (s : State) : Host.Outcome State Fault Refusal :=
  if 0 < s.remainingCycles then .next s.drain else exec s.fetched s

/-- The unmapped opcode byte that the next tick would fetch, if it is a fetch tick that would; it is the model's content of the
diagnostic event (DESIGN CHOICE, log 7). -/
def State.illegalOpcode (s : State) : Option Byte :=
  if 0 < s.remainingCycles then none
  else if s.fetched.mnemonic = .unmapped then some (s.read s.pc) else none

/-- The optional "illegal opcode" diagnostic event of the next tick (00_scope.md R7), where the implementation has one. It is an output to the host:
no state holds it and no step reads it. DESIGN CHOICE (safe, log 7): the spec gives the event no content; here it carries the unmapped opcode byte. -/
def State.diagnosticEvent (s : State) : Option Byte :=
  if Config.diag then s.illegalOpcode else none

/-- Three consecutive bytes at PC all have storage. -/
def State.canHoldInstr (s : State) : Bool := decide (s.pc.toNat + 2 < 0x4018)

/-- The state with the next tick a fetch tick, at a PC where three bytes can be stored: PC itself where it can, else 0x0000. -/
def State.readyToFetch (s : State) : State :=
  { s with remainingCycles := 0, pc := if s.canHoldInstr then s.pc else 0x0000#16 }

/-- The state with three bytes stored at PC and after it. -/
def State.storeAtPc (s : State) (b0 b1 b2 : Byte) : State :=
  ((s.write s.pc b0).write (s.pc + 1) b1).write (s.pc + 2) b2

end Sys2Proof.Machine
end

