-- ==== Sys2Proof/Machine/Step.lean ====
section
/-! DEFINITION. One step: one tick of the CPU and then the peripheral agent's action in the gap before the next tick
(70_reset_and_hazards.md R246, 20_memory.md R65). -/

namespace Sys2Proof.Machine

def step (s : State) : Host.Outcome State Fault Refusal :=
  match tick s with
  | .next t => .next t.gap
  | .fault r => .fault r
  | .refused r => .refused r

/-- The instruction whose bits are `w`, numbered as spec/opcode_table.json numbers them, placed where the next step fetches it; the bits from `nbits` up
are 0. This stands for the host's load of a program (70_reset_and_hazards.md R244; log 3). -/
def State.withFetchWord (s : State) (nbits w : Nat) : State :=
  let u := w % 2 ^ nbits
  s.readyToFetch.storeAtPc (tableByte u 0) (tableByte u 1) (tableByte u 2)

end Sys2Proof.Machine
end

