-- ==== Sys2Proof/Machine/Assembly.lean ====
section
/-! DEFINITION. The assembler's side of the encoding (30_encoding.md section 5): the bytes an assembler emits and what it rejects (R91), and the
spelling of an instruction (R90, decision D22). No step of the machine reads any of it. -/

namespace Sys2Proof.Machine

/-- The opcode byte of a (mnemonic, mode) pair, if R86 has it. -/
def opcodeOf (m : Mnemonic) (mode : Mode) : Option Byte :=
  ((List.range 256).map (BitVec.ofNat 8)).find? fun op =>
    decide ((decodeOp op 0 0).mnemonic = m) && decide ((decodeOp op 0 0).operand.map Operand.mode = some mode)

/-- The displacement byte of a branch at `pc` to `target`, if it is within -128..+127 of the address after the branch; the distance is taken modulo 65536
(DEDUCED, log 14). -/
def displacement (pc target : U16) : Option Byte :=
  let d := target - (pc + 2)
  if -128 ≤ d.toInt ∧ d.toInt ≤ 127 then some (d.setWidth 8) else none

/-- The operand bytes of a value written in a mode by an instruction at `pc`, a 16-bit value high byte first; none where the value does not fit. The value of
Relative is the target address. DESIGN CHOICE (log 14): the bound 0xFFFF, and that an Implied value is ignored. -/
def operandBytes (mode : Mode) (n : Nat) (pc : U16) : Option (List Byte) :=
  match mode with
  | .implied => some []
  | .immediate | .zeroPage | .zeroPageX | .zeroPageY | .indirectX | .indirectY =>
    if n < 0x100 then some [BitVec.ofNat 8 n] else none
  | .absolute | .absoluteX | .absoluteY | .indirect =>
    if n < 0x10000 then some [hiByte (BitVec.ofNat 16 n), loByte (BitVec.ofNat 16 n)] else none
  | .relative =>
    if n < 0x10000 then (displacement pc (BitVec.ofNat 16 n)).map fun d => [d] else none

/-- What an assembler emits for one instruction at `pc`; none where it must reject (R91). DESIGN CHOICE (log 14): it rejects
nothing else than what `opcodeOf` and `operandBytes` do. -/
def assemble (m : Mnemonic) (mode : Mode) (n : Nat) (pc : U16) : Option (List Byte) :=
  match opcodeOf m mode, operandBytes mode n pc with
  | some op, some bs => some (op :: bs)
  | _, _ => none

/-! ## Spelling -/

/-- A hexadecimal digit, upper case. -/
def hexDigit (n : Nat) : Char :=
  if n < 10 then Char.ofNat (48 + n) else Char.ofNat (55 + n)

/-- A byte with its two digits. -/
def hexByte (b : Byte) : List Char := ['$', hexDigit (b.toNat / 16), hexDigit (b.toNat % 16)]

/-- A 16-bit value with its four digits. -/
def hexWord (w : U16) : List Char := hexByte (hiByte w) ++ (hexByte (loByte w)).tail

/-- The operand as written after the mnemonic, by an instruction at `pc`. -/
def Operand.spelling (o : Operand) (pc : U16) : List Char :=
  match o with
  | .implied => []
  | .immediate v => [' ', '#'] ++ hexByte v
  | .zeroPage z => [' '] ++ hexByte z
  | .zeroPageX z => [' '] ++ hexByte z ++ [',', 'X']
  | .zeroPageY z => [' '] ++ hexByte z ++ [',', 'Y']
  | .absolute w => [' '] ++ hexWord w
  | .absoluteX w => [' '] ++ hexWord w ++ [',', 'X']
  | .absoluteY w => [' '] ++ hexWord w ++ [',', 'Y']
  | .indirect w => [' ', '('] ++ hexWord w ++ [')']
  | .indirectX z => [' ', '('] ++ hexByte z ++ [',', 'X', ')']
  | .indirectY z => [' ', '('] ++ hexByte z ++ [')', ',', 'Y']
  | .relative d => [' '] ++ hexWord (pc + 2 + d.signExtend 16)

/-- The mnemonic's three letters; none for an unmapped byte. -/
def Mnemonic.letters : Mnemonic → List Char
  | .lda => ['L', 'D', 'A'] | .ldx => ['L', 'D', 'X'] | .ldy => ['L', 'D', 'Y']
  | .sta => ['S', 'T', 'A'] | .stx => ['S', 'T', 'X'] | .sty => ['S', 'T', 'Y']
  | .tax => ['T', 'A', 'X'] | .tay => ['T', 'A', 'Y'] | .tsx => ['T', 'S', 'X']
  | .txa => ['T', 'X', 'A'] | .txs => ['T', 'X', 'S'] | .tya => ['T', 'Y', 'A']
  | .inc => ['I', 'N', 'C'] | .dec => ['D', 'E', 'C'] | .inx => ['I', 'N', 'X']
  | .iny => ['I', 'N', 'Y'] | .dex => ['D', 'E', 'X'] | .dey => ['D', 'E', 'Y']
  | .jmp => ['J', 'M', 'P'] | .bcc => ['B', 'C', 'C'] | .bcs => ['B', 'C', 'S']
  | .beq => ['B', 'E', 'Q'] | .bne => ['B', 'N', 'E'] | .bmi => ['B', 'M', 'I']
  | .bpl => ['B', 'P', 'L'] | .bvc => ['B', 'V', 'C'] | .bvs => ['B', 'V', 'S']
  | .adc => ['A', 'D', 'C'] | .sbc => ['S', 'B', 'C'] | .pha => ['P', 'H', 'A']
  | .php => ['P', 'H', 'P'] | .pla => ['P', 'L', 'A'] | .plp => ['P', 'L', 'P']
  | .jsr => ['J', 'S', 'R'] | .rts => ['R', 'T', 'S'] | .rti => ['R', 'T', 'I']
  | .unmapped => []

/-- The instruction at `pc` in assembler spelling (R90); an unmapped byte has none. -/
def spelling (i : Instr) (pc : U16) : Option (List Char) :=
  i.operand.map fun o => Mnemonic.letters i.mnemonic ++ Operand.spelling o pc

end Sys2Proof.Machine
end

