-- ==== Sys2Proof/Machine/Cycles.lean ====
section
/-! DEFINITION. The cycle table by class and mode (47_dispatch.md R205 to R208), written apart from the figures that each meaning takes from its
row of 30_encoding.md R86, so that a claim can hold the two against each other. -/

namespace Sys2Proof.Machine

/-- The rows of R205: how an instruction uses its effective address. -/
inductive CostClass where
  | read | write | rmw | implied | jump | branch | push | pull | jsr | rts | rti
deriving DecidableEq, Repr

/-- The class of each mnemonic (R205, first column); an unmapped byte has none. -/
def costClass : Mnemonic → Option CostClass
  | .lda | .ldx | .ldy | .adc | .sbc => some .read
  | .sta | .stx | .sty => some .write
  | .inc | .dec => some .rmw
  | .tax | .tay | .tsx | .txa | .txs | .tya | .inx | .iny | .dex | .dey => some .implied
  | .jmp => some .jump
  | .bcc | .bcs | .beq | .bne | .bmi | .bpl | .bvc | .bvs => some .branch
  | .pha | .php => some .push
  | .pla | .plp => some .pull
  | .jsr => some .jsr
  | .rts => some .rts
  | .rti => some .rti
  | .unmapped => none

/-- The cells of the read row of R205. -/
def readCost : Mode → Option Nat
  | .immediate => some 2
  | .zeroPage => some 3
  | .zeroPageX | .zeroPageY | .absolute | .absoluteX | .absoluteY => some 4
  | .indirectX => some 6
  | .indirectY => some 5
  | .implied | .indirect | .relative => none

/-- The cells of the write row of R205. -/
def writeCost : Mode → Option Nat
  | .zeroPage => some 3
  | .zeroPageX | .zeroPageY | .absolute => some 4
  | .absoluteX | .absoluteY => some 5
  | .indirectX | .indirectY => some 6
  | .implied | .immediate | .indirect | .relative => none

/-- The cells of the read-modify-write row of R205. -/
def rmwCost : Mode → Option Nat
  | .zeroPage => some 5
  | .zeroPageX | .zeroPageY | .absolute => some 6
  | .absoluteX | .absoluteY => some 7
  | .implied | .immediate | .indirect | .indirectX | .indirectY | .relative => none

/-- The cells of the jump row of R205. -/
def jumpCost : Mode → Option Nat
  | .absolute => some 3
  | .indirect => some 5
  | .implied | .immediate | .zeroPage | .zeroPageX | .zeroPageY | .absoluteX | .absoluteY | .indirectX | .indirectY
  | .relative => none

/-- The base cost of a class in a mode (R205); none for an empty cell. -/
def baseCost (c : CostClass) (m : Mode) : Option Nat :=
  match c with
  | .read => readCost m
  | .write => writeCost m
  | .rmw => rmwCost m
  | .jump => jumpCost m
  | .implied => if m = .implied then some 2 else none
  | .branch => if m = .relative then some 2 else none
  | .push => if m = .implied then some 3 else none
  | .pull => if m = .implied then some 4 else none
  | .jsr => if m = .absolute then some 6 else none
  | .rts | .rti => if m = .implied then some 6 else none

/-- Whether a branch mnemonic's condition holds (44_jump_branch.md R161); false for every other mnemonic. -/
def branchTaken (s : State) : Mnemonic → Bool
  | .bcc => !s.flag .c
  | .bcs => s.flag .c
  | .bne => !s.flag .z
  | .beq => s.flag .z
  | .bpl => !s.flag .n
  | .bmi => s.flag .n
  | .bvc => !s.flag .v
  | .bvs => s.flag .v
  | .lda | .ldx | .ldy | .sta | .stx | .sty | .tax | .tay | .tsx | .txa | .txs | .tya | .inc | .dec | .inx | .iny | .dex | .dey
  | .jmp | .adc | .sbc | .pha | .php | .pla | .plp | .jsr | .rts | .rti | .unmapped => false

/-- A read-class instruction in one of the three modes that owe a cycle for a page crossing, and a page crossed (R206). -/
def readCrossing (c : CostClass) (o : Operand) (s : State) : Bool :=
  decide (c = .read) && decide (o.mode = .absoluteX ∨ o.mode = .absoluteY ∨ o.mode = .indirectY) && (resolve o s).crossed

/-- `Cost(instr, mode, crossed, taken)` (R208); none for an unmapped byte. -/
def cost (i : Instr) (s : State) : Option Nat :=
  match i.operand, costClass i.mnemonic with
  | some o, some c =>
    (baseCost c o.mode).map fun base =>
      base + (readCrossing c o s).toNat +
        (if branchTaken s i.mnemonic then 1 + (resolve o s).crossed.toNat else 0)
  | _, _ => none

end Sys2Proof.Machine
end

