-- ==== Sys2Proof/Machine/Footprint.lean ====
section
/-! DEFINITION. Which instruction reads and writes what, as the spec's tables say (10_state.md R21 to R23, R26, R33; 20_memory.md section 6),
written apart from the meanings, for claims about what an instruction leaves alone. -/

namespace Sys2Proof.Machine

/-- The instructions that write a register: A (R21), X (R22), Y (R23), S (R26). -/
def regWriters : Reg → List Mnemonic
  | .a => [.lda, .txa, .tya, .pla, .adc, .sbc]
  | .x => [.ldx, .tax, .tsx, .inx, .dex]
  | .y => [.ldy, .tay, .iny, .dey]
  | .s => [.txs, .pha, .php, .jsr, .pla, .plp, .rts, .rti]

/-- The instructions that read A (R21). -/
def accumulatorReaders : List Mnemonic := [.sta, .tax, .tay, .pha, .adc, .sbc]

/-- The bits of P that an instruction writes, by the table under R33. PLP and RTI write P whole: their two discarded bits come out 0 (R32). -/
def flagsWritten : Mnemonic → Byte
  | .lda | .ldx | .ldy | .tax | .tay | .tsx | .txa | .tya | .inc | .dec | .inx | .iny | .dex | .dey | .pla => 0b10000010#8
  | .adc | .sbc => 0b11000011#8
  | .plp | .rti => 0b11111111#8
  | .sta | .stx | .sty | .txs | .jmp | .jsr | .rts | .bcc | .bcs | .beq | .bne | .bmi | .bpl | .bvc | .bvs | .pha | .php
  | .unmapped => 0b00000000#8

/-- The instructions that read each flag (R34). -/
def flagReaders : Flag → List Mnemonic
  | .c => [.bcc, .bcs, .adc, .sbc, .php]
  | .z => [.beq, .bne, .php]
  | .n => [.bmi, .bpl, .php]
  | .v => [.bvc, .bvs, .php]
  | .d | .i => [.php]

/-- The bus addresses an instruction stores a byte to (20_memory.md section 6): a store or a read-modify-write at its effective address, a push at
the stack address, JSR at two. -/
def storeAddresses (i : Instr) (s : State) : List U16 :=
  match i.mnemonic with
  | .sta | .stx | .sty | .inc | .dec => i.operand.toList.map fun o => (resolve o s).ea
  | .pha | .php => [stackAddress s.s]
  | .jsr => [stackAddress s.s, stackAddress (s.s - 1)]
  | .lda | .ldx | .ldy | .tax | .tay | .tsx | .txa | .txs | .tya | .inx | .iny | .dex | .dey | .jmp | .bcc | .bcs | .beq | .bne
  | .bmi | .bpl | .bvc | .bvs | .adc | .sbc | .pla | .plp | .rts | .rti | .unmapped => []

/-- The instructions that set PC to a target in this state: JMP, JSR, RTS, RTI and a taken branch (R25). -/
def transfersControl (i : Instr) (s : State) : Bool :=
  [Mnemonic.jmp, .jsr, .rts, .rti].contains i.mnemonic || branchTaken s i.mnemonic

end Sys2Proof.Machine
end

