-- ==== Sys2Proof/Safety.lean ====
section
/-! DEFINITION. What claims call a sound state and a finished run, in the spec's own terms. -/

namespace Sys2Proof.Machine

/-- The three arrays are in canonical form, every index inside its array (10_state.md R36). -/
def State.memoryWf (s : State) : Bool :=
  Memory.wf Config.ramSize s.ram && Memory.wf Config.ppuSize s.ppu && Memory.wf Config.apuSize s.apu

/-- The invariants of every reachable state (47_dispatch.md R210): `P & 0x30 == 0` and `remainingCycles <= 6`; with them the canonical form of
the arrays, which is the model's own. -/
def State.inv (s : State) : Bool :=
  decide (s.p &&& 0x30#8 = 0) && decide (s.remainingCycles ≤ 6) && s.memoryWf

/-- An instruction boundary (70_reset_and_hazards.md R247). -/
def State.atBoundary (s : State) : Bool := decide (s.remainingCycles = 0)

/-- Parked (R248 a): at a boundary with an unmapped opcode byte at PC. -/
def State.parked (s : State) : Bool := s.atBoundary && decide (s.fetched.mnemonic = .unmapped)

/-- In a self-loop (R248 b): at a boundary, with a JMP Absolute to its own address at PC, or a taken branch with displacement 0xFE. -/
def State.selfLoop (s : State) : Bool :=
  s.atBoundary && (decide (s.fetched = .jmpAbsolute s.pc) ||
    (branchTaken s s.fetched.mnemonic && decide (s.fetched.operand = some (.relative 0xFE#8))))

/-- `k` ticks of the CPU alone, with no peripheral action between them. -/
def runTicks : Nat → State → Host.Outcome State Fault Refusal
  | 0, s => .next s
  | k + 1, s =>
    match tick s with
    | .next t => runTicks k t
    | .fault r => .fault r
    | .refused r => .refused r

end Sys2Proof.Machine
end

