-- ==== Sys2Proof/Certificates/Slice0/Obligations.lean ====
section
/-! DEFINITION. The statements for the provers, `def Obligations.<Name> : Prop`, and before them the after-states they name. A docstring names the
rule of spec/ a statement follows, and the spec's decision D<n> or the log entry it rests on where it rests on one. -/

open Sys2Proof Sys2Proof.Machine

namespace Sys2Proof.Claims

/-! ## After-states, each written out field by field; every field not named is unchanged -/

/-- After an instruction of `len` bytes and `n` cycles that does nothing else. -/
def passed (s : State) (len : U16) (n : Nat) : State := { s with pc := s.pc + len, remainingCycles := n - 1 }

/-- After `v` went to A: N and Z from it. -/
def toA (s : State) (v : Byte) (len : U16) (n : Nat) : State :=
  { s with a := v, p := setNZ s.p v, pc := s.pc + len, remainingCycles := n - 1 }

/-- After `v` went to X: N and Z from it. -/
def toX (s : State) (v : Byte) (len : U16) (n : Nat) : State :=
  { s with x := v, p := setNZ s.p v, pc := s.pc + len, remainingCycles := n - 1 }

/-- After `v` went to Y: N and Z from it. -/
def toY (s : State) (v : Byte) (len : U16) (n : Nat) : State :=
  { s with y := v, p := setNZ s.p v, pc := s.pc + len, remainingCycles := n - 1 }

/-- After `v` was stored at the bus address `a`, no flag changed. -/
def stored (s : State) (a : U16) (v : Byte) (len : U16) (n : Nat) : State :=
  { s.write a v with pc := s.pc + len, remainingCycles := n - 1 }

/-- After `v` replaced the byte at the bus address `a`: N and Z from it. -/
def replaced (s : State) (a : U16) (v : Byte) (len : U16) (n : Nat) : State :=
  { s.write a v with p := setNZ s.p v, pc := s.pc + len, remainingCycles := n - 1 }

/-- After a branch with displacement `d` at PC: past it in 2 cycles, or, if taken, at the target in 3, in 4 if that is another page than the next
instruction's (R121, R161, R207). -/
def branched (s : State) (taken : Bool) (d : Byte) : State :=
  let next := s.pc + 2
  let target := next + d.signExtend 16
  if taken then
    { s with pc := target, remainingCycles := if next &&& 0xFF00#16 = target &&& 0xFF00#16 then 2 else 3 }
  else { s with pc := next, remainingCycles := 1 }

/-- After A took the sum of A, `n` and the carry flag, by the formulas of R181. -/
def summed (s : State) (n : Byte) (len : U16) (cycles : Nat) : State :=
  let sum : Nat := s.a.toNat + n.toNat + (s.flag .c).toNat
  let r : Byte := BitVec.ofNat 8 sum
  { s with
    a := r
    p := setNZ (setOverflow (setCarry s.p (decide (sum > 255))) (((s.a ^^^ r) &&& (n ^^^ r) &&& 0x80#8) != 0)) r
    pc := s.pc + len
    remainingCycles := cycles - 1 }

/-- The three bytes a fetch tick reads from PC on. -/
def bytesAtPc (s : State) : List Byte := [s.read s.pc, s.read (s.pc + 1), s.read (s.pc + 2)]

/-- What `i` answers is the same in `s` and `s'` but for P. -/
def sameButStatus (i : Instr) (s s' : State) : Prop :=
  ∃ t t', exec i s = .next t ∧ exec i s' = .next t' ∧ { t' with p := t.p } = t

/-- The byte that the last write to a window element puts there, if a gap's writes have one. -/
def lastWrite (ws : PeripheralAction) (e : WindowElem) : Option Byte :=
  ((ws.filter fun w => decide (w.elem = e)).getLast?).map WindowWrite.value

end Sys2Proof.Claims

open Sys2Proof.Claims

/-! ## Encoding (30_encoding.md) -/

/-- Decoding the encoding of a well-formed instruction, whatever bytes follow, gives it back (R80, R84, R86; the opcode bytes are decision D1). -/
def Obligations.DecodeOfEncodeIsTheInstruction : Prop :=
  ∀ (i : Instr) (rest : List Byte), i.wellFormed = true → decode (encode i ++ rest) = .ok i

/-- Every three bytes hold a well-formed instruction whose encoding is what they begin with; nothing of the bytes it occupies is dropped, and its row
and length depend on the first byte alone (R82, R89). -/
def Obligations.DecodingAnyBytesLosesNothing : Prop :=
  ∀ op b1 b2 : Byte,
    (decodeOp op b1 b2).wellFormed = true ∧
    (∃ rest, encode (decodeOp op b1 b2) ++ rest = [op, b1, b2]) ∧
    (∀ c1 c2 : Byte, (decodeOp op c1 c2).mnemonic = (decodeOp op b1 b2).mnemonic ∧
      (decodeOp op c1 c2).operand.map Operand.mode = (decodeOp op b1 b2).operand.map Operand.mode ∧
      (decodeOp op c1 c2).length = (decodeOp op b1 b2).length)

/-- The bytes that decode to no mnemonic are the 174 that R88 lists (decision D1). -/
def Obligations.UnmappedBytesAreThoseListed : Prop :=
  unmappedOpcodes.length = 174 ∧
  ∀ op b1 b2 : Byte, (decodeOp op b1 b2).mnemonic = .unmapped ↔ op ∈ unmappedOpcodes

/-- The three opcode bytes the source fixes (R85), with every operand byte after them. -/
def Obligations.SourceOpcodeBytesDecode : Prop :=
  ∀ b1 b2 : Byte,
    decode [0xA9#8, b1] = .ok (.ldaImmediate b1) ∧
    decode [0x95#8, b1] = .ok (.staZeroPageX b1) ∧
    ∃ w, decode [0x6C#8, b1, b2] = .ok (.jmpIndirect w)

/-- A word of each family, written out bit by bit from R86, decodes to its instruction; a 16-bit operand has its high byte first (R84). -/
def Obligations.FamilyWordsDecode : Prop :=
  decode [0b10101101#8, 0b00000001#8, 0b00100011#8] = .ok (.ldaAbsolute 0x0123#16) ∧
  decode [0b10011010#8] = .ok .txs ∧
  decode [0b11111110#8, 0b00000010#8, 0b11110000#8] = .ok (.incAbsoluteX 0x02F0#16) ∧
  decode [0b11010000#8, 0b11111011#8] = .ok (.bne 0xFB#8) ∧
  decode [0b11110001#8, 0b01000000#8] = .ok (.sbcIndirectY 0x40#8) ∧
  decode [0b00100000#8, 0b00000110#8, 0b00010000#8] = .ok (.jsr 0x0610#16) ∧
  decode [0b11101010#8] = .ok (.unmapped 0xEA#8)

/-- What an assembler emits (R91, R84) is the encoding of an instruction of that mnemonic and mode, and its operand bytes say the value written: a byte, a
16-bit value high byte first, or the displacement that leads to the target (modulo 65536, log 14). -/
def Obligations.AssemblerEmitsTheEncoding : Prop :=
  ∀ (m : Mnemonic) (mode : Mode) (n : Nat) (pc : U16) (bytes : List Byte), assemble m mode n pc = some bytes →
    (∃ i, decode bytes = .ok i ∧ encode i = bytes ∧ i.mnemonic = m ∧ i.operand.map Operand.mode = some mode) ∧
    (mode ∈ [Mode.immediate, .zeroPage, .zeroPageX, .zeroPageY, .indirectX, .indirectY] → (bytes.getD 1 0).toNat = n) ∧
    (mode ∈ [Mode.absolute, .absoluteX, .absoluteY, .indirect] →
      (bytes.getD 1 0).toNat * 256 + (bytes.getD 2 0).toNat = n) ∧
    (mode = .relative → ∀ s : State, s.pc = pc → (resolve (.relative (bytes.getD 1 0)) s).ea.toNat = n)

/-- What an assembler rejects (R91, R87): a pair of mnemonic and mode that no instruction has, a value that does not fit its operand bytes, and a branch
whose target no displacement reaches; nothing else. That it rejects nothing else, the bound of a 16-bit value, and the distance modulo 65536 are the model's
choice (log 14): R91 lists only what must be rejected. -/
def Obligations.AssemblerRejectsWhatHasNoEncoding : Prop :=
  ∀ (m : Mnemonic) (mode : Mode) (n : Nat) (pc : U16),
    assemble m mode n pc = none ↔
      (∀ i : Instr, i.mnemonic = m → i.operand.map Operand.mode ≠ some mode) ∨
      (mode ∈ [Mode.immediate, .zeroPage, .zeroPageX, .zeroPageY, .indirectX, .indirectY] ∧ 0xFF < n) ∨
      (mode ∈ [Mode.absolute, .absoluteX, .absoluteY, .indirect] ∧ 0xFFFF < n) ∨
      (mode = .relative ∧ ∀ d : Byte, (pc + 2 + d.signExtend 16).toNat ≠ n)

/-! ## The bus (20_memory.md) -/

/-- The router's table (R51) and the read through it (R56). -/
def Obligations.BusReadFollowsTheRouter : Prop :=
  ∀ (s : State) (a : U16),
    (a.toNat ≤ 0x1FFF → (∃ i, route a = .ram i ∧ i.val = a.toNat % 0x0800) ∧
      s.read a = Memory.read s.ram (a.toNat % 0x0800)) ∧
    (0x2000 ≤ a.toNat → a.toNat ≤ 0x3FFF → (∃ i, route a = .ppu i ∧ i.val = (a.toNat - 0x2000) % 8) ∧
      s.read a = Memory.read s.ppu ((a.toNat - 0x2000) % 8)) ∧
    (0x4000 ≤ a.toNat → a.toNat ≤ 0x4017 → (∃ i, route a = .apu i ∧ i.val = a.toNat - 0x4000) ∧
      s.read a = Memory.read s.apu (a.toNat - 0x4000)) ∧
    (0x4018 ≤ a.toNat → route a = .openBus ∧ s.read a = 0xFF#8)

/-- The write through the router (R57): one element of one array takes the byte, every other element and every register keeps its value, and open bus
changes nothing. -/
def Obligations.BusWriteReplacesOneElement : Prop :=
  ∀ (s : State) (a : U16) (v : Byte),
    { s.write a v with ram := s.ram, ppu := s.ppu, apu := s.apu } = s ∧
    (a.toNat ≤ 0x1FFF → (s.write a v).ppu = s.ppu ∧ (s.write a v).apu = s.apu ∧
      ∀ i, Memory.read (s.write a v).ram i = if i = a.toNat % 0x0800 then v else Memory.read s.ram i) ∧
    (0x2000 ≤ a.toNat → a.toNat ≤ 0x3FFF → (s.write a v).ram = s.ram ∧ (s.write a v).apu = s.apu ∧
      ∀ i, Memory.read (s.write a v).ppu i = if i = (a.toNat - 0x2000) % 8 then v else Memory.read s.ppu i) ∧
    (0x4000 ≤ a.toNat → a.toNat ≤ 0x4017 → (s.write a v).ram = s.ram ∧ (s.write a v).ppu = s.ppu ∧
      ∀ i, Memory.read (s.write a v).apu i = if i = a.toNat - 0x4000 then v else Memory.read s.apu i) ∧
    (0x4018 ≤ a.toNat → s.write a v = s)

/-- Reading any address after a write: the byte written at every mirror of that address, what was there before everywhere else (R58, from R56 and R57). -/
def Obligations.MirrorsSeeTheWrite : Prop :=
  ∀ (s : State) (a b : U16) (v : Byte),
    ((a.toNat < 0x2000 ∧ b.toNat < 0x2000 ∧ a.toNat % 0x0800 = b.toNat % 0x0800) ∨
      (0x2000 ≤ a.toNat ∧ a.toNat < 0x4000 ∧ 0x2000 ≤ b.toNat ∧ b.toNat < 0x4000 ∧ a.toNat % 8 = b.toNat % 8) ∨
      (a = b ∧ a.toNat < 0x4018) → (s.write a v).read b = v) ∧
    (route a ≠ route b → (s.write a v).read b = s.read b)

/-- Open bus (R55): reads 0xFF, discards writes, is exactly 0x4018 to 0xFFFF, and an opcode fetched from it is unmapped. -/
def Obligations.OpenBusReadsFFAndDiscardsWrites : Prop :=
  ∀ (s : State) (a : U16) (v : Byte),
    (0x4018 ≤ a.toNat ↔ route a = .openBus) ∧
    (0x4018 ≤ a.toNat → s.read a = 0xFF#8 ∧ s.write a v = s ∧
      ({ s with pc := a } : State).fetched = .unmapped 0xFF#8)

/-- The model's own (log 1): two arrays in canonical form that read alike at every index are equal data. -/
def Obligations.CanonicalArraysReadingAlikeAreEqual : Prop :=
  ∀ (size : Nat) (m n : Memory), Memory.wf size m = true → Memory.wf size n = true →
    (∀ i, Memory.read m i = Memory.read n i) → m = n

/-! ## Flags (10_state.md) -/

/-- `setNegative` (R28) and `setZero` (R29): the bit they set, and every other bit preserved; N and Z are never both 1 after `SetNZ`. -/
def Obligations.NegativeAndZeroSetters : Prop :=
  ∀ (p v : Byte) (k : Nat),
    (setNegative p v).getLsbD k = (if k = 7 then v.getLsbD 7 else p.getLsbD k) ∧
    (v.getLsbD 7 = decide (v.toNat > 0x7F)) ∧
    (setZero p v).getLsbD k = (if k = 1 then decide (v = 0) else p.getLsbD k) ∧
    setNZ p v = setZero (setNegative p v) v ∧
    ¬ ((setNZ p v).getLsbD 7 = true ∧ (setNZ p v).getLsbD 1 = true)

/-- `setCarry` and `setOverflow` assign their bit and preserve the others, the getters read the bits, and only ADC, SBC, PLP and RTI write C and V (R30). -/
def Obligations.CarryAndOverflowSetters : Prop :=
  (∀ (p : Byte) (b : Bool) (k : Nat),
    (setCarry p b).getLsbD k = (if k = 0 then b else p.getLsbD k) ∧
    (setOverflow p b).getLsbD k = (if k = 6 then b else p.getLsbD k)) ∧
  (∀ s : State, s.flag .n = s.p.getLsbD 7 ∧ s.flag .z = s.p.getLsbD 1 ∧ s.flag .c = s.p.getLsbD 0 ∧ s.flag .v = s.p.getLsbD 6) ∧
  ∀ (i : Instr) (s : State), ∃ t, exec i s = .next t ∧
    (i.mnemonic ∉ [Mnemonic.adc, .sbc, .plp, .rti] → t.flag .c = s.flag .c ∧ t.flag .v = s.flag .v)

/-- The flag-write table (R33): every bit of P outside those the table gives the instruction keeps its value. The rows of PLA, PLP and RTI are decisions
D9 and D11. -/
def Obligations.FlagWriteTableIsComplete : Prop :=
  ∀ (i : Instr) (s : State), ∃ t, exec i s = .next t ∧
    t.p &&& ~~~(flagsWritten i.mnemonic) = s.p &&& ~~~(flagsWritten i.mnemonic)

/-- D and I are stored bits (R31): PLP and RTI alone write them, from the pulled byte; PHP alone reads them, and pushes both; ADC and SBC, like every other
instruction, do the same whatever they hold. Where the pulled and the pushed byte lie is decision D8 (R190, R191), their bits 3 and 2 are those of P by D9 (R193,
R195, R198), and that RTI pulls P first is D10 (R198). -/
def Obligations.DecimalAndInterruptDisableHaveNoEffect : Prop :=
  (∀ (i : Instr) (s : State),
    (∃ t, exec i s = .next t ∧ (i.mnemonic ∉ [Mnemonic.plp, .rti] → t.flag .d = s.flag .d ∧ t.flag .i = s.flag .i)) ∧
    (i.mnemonic ≠ .php → ∀ d n : Bool,
      sameButStatus i s { s with p := setFlag (setFlag s.p .d d) .i n } ∧
      ∀ t t', exec i s = .next t → exec i { s with p := setFlag (setFlag s.p .d d) .i n } = .next t' →
        ∀ f, f ≠ .d → f ≠ .i → t'.flag f = t.flag f)) ∧
  ∀ s : State,
    let pulled := s.read (0x0100#16 + (s.s + 1).setWidth 16)
    (∃ t, exec .plp s = .next t ∧ t.flag .d = pulled.getLsbD 3 ∧ t.flag .i = pulled.getLsbD 2) ∧
    (∃ t, exec .rti s = .next t ∧ t.flag .d = pulled.getLsbD 3 ∧ t.flag .i = pulled.getLsbD 2) ∧
    ∃ t, exec .php s = .next t ∧ (t.read (0x0100#16 + s.s.setWidth 16)).getLsbD 3 = s.flag .d ∧
      (t.read (0x0100#16 + s.s.setWidth 16)).getLsbD 2 = s.flag .i

/-- Who reads a flag (R34): an instruction outside the readers of `f` does the same whatever `f` holds; `f` reaches no other bit of P, and none at all where the
instruction writes `f` (the flag-write table of R33, whose rows of PLA, PLP and RTI are decisions D9 and D11). A reader of `f` does, in every state, something else with `f` 0 than with `f` 1, besides P. -/
def Obligations.OnlyTheReadersDependOnAFlag : Prop :=
  ∀ (i : Instr) (s : State) (f : Flag),
    (i.mnemonic ∉ flagReaders f → ∀ b : Bool,
      ∃ t t', exec i s = .next t ∧ exec i { s with p := setFlag s.p f b } = .next t' ∧
        { t' with p := t.p } = t ∧ (∀ k, k ≠ f.bit → t'.p.getLsbD k = t.p.getLsbD k) ∧
        t'.flag f = (if (flagsWritten i.mnemonic).getLsbD f.bit then t.flag f else b)) ∧
    (i.mnemonic ∈ flagReaders f →
      ∃ t t', exec i { s with p := setFlag s.p f false } = .next t ∧ exec i { s with p := setFlag s.p f true } = .next t' ∧
        { t' with p := t.p } ≠ t)

/-! ## The resolver (40_addressing.md) -/

/-- Immediate, ZeroPage, ZeroPageX, ZeroPageY, Absolute, AbsoluteX, AbsoluteY (R111 to R117) from the operand bytes `b1` and `b2`: effective address,
crossing, length, and Immediate's datum. The wrap of a 16-bit address modulo 65536 is decision D20; that Immediate's datum is the operand byte which the
instruction carries is the model's form (log 5, DEDUCED). -/
def Obligations.DirectModesResolve : Prop :=
  ∀ (s : State) (b1 b2 : Byte),
    let base : Nat := b1.toNat * 256 + b2.toNat
    let at_ (m : Mode) : Resolved := resolve (Operand.ofBytes m b1 b2) s
    (at_ .immediate = ⟨s.pc + 1, false⟩ ∧
      (s.read (s.pc + 1) = b1 → operandValue (Operand.ofBytes .immediate b1 b2) s = s.read (at_ .immediate).ea)) ∧
    ((at_ .zeroPage).ea.toNat = b1.toNat ∧ (at_ .zeroPage).crossed = false) ∧
    ((at_ .zeroPageX).ea.toNat = (b1.toNat + s.x.toNat) % 256 ∧ (at_ .zeroPageX).crossed = false) ∧
    ((at_ .zeroPageY).ea.toNat = (b1.toNat + s.y.toNat) % 256 ∧ (at_ .zeroPageY).crossed = false) ∧
    ((at_ .absolute).ea.toNat = base ∧ (at_ .absolute).crossed = false) ∧
    ((at_ .absoluteX).ea.toNat = (base + s.x.toNat) % 65536 ∧ (at_ .absoluteX).crossed = crossed (BitVec.ofNat 16 base) s.x) ∧
    ((at_ .absoluteY).ea.toNat = (base + s.y.toNat) % 65536 ∧ (at_ .absoluteY).crossed = crossed (BitVec.ofNat 16 base) s.y) ∧
    (∀ m ∈ [Mode.immediate, .zeroPage, .zeroPageX, .zeroPageY], (Operand.ofBytes m b1 b2).length = 2) ∧
    ∀ m ∈ [Mode.absolute, .absoluteX, .absoluteY], (Operand.ofBytes m b1 b2).length = 3

/-- Indirect with its page wrap (R118, D5), IndirectX (R119) and IndirectY (R120, D6) with the zero-page wrap of the pointer. -/
def Obligations.IndirectModesResolve : Prop :=
  ∀ (s : State) (z : Byte) (w : U16),
    resolve (.indirect w) s =
      ⟨word (s.read (if loByte w = 0xFF#8 then w - 0x00FF#16 else w + 1)) (s.read w), false⟩ ∧
    resolve (.indirectX z) s =
      ⟨word (s.read (BitVec.ofNat 16 ((z.toNat + s.x.toNat + 1) % 256)))
        (s.read (BitVec.ofNat 16 ((z.toNat + s.x.toNat) % 256))), false⟩ ∧
    ∀ base : U16, base = word (s.read (BitVec.ofNat 16 ((z.toNat + 1) % 256))) (s.read (BitVec.ofNat 16 z.toNat)) →
      resolve (.indirectY z) s = ⟨base + s.y.setWidth 16, crossed base s.y⟩

/-- Page crossing (R124): by the high bytes, equivalently by the low byte's overflow; it holds at the top of the address space and never for index 0. -/
def Obligations.PageCrossingIsLowByteOverflow : Prop :=
  (∀ (base : U16) (i : Byte),
    (crossed base i = true ↔ base &&& 0xFF00#16 ≠ (base + i.setWidth 16) &&& 0xFF00#16) ∧
    (crossed base i = true ↔ (base &&& 0x00FF#16).toNat + i.toNat > 0xFF)) ∧
  crossed 0xFFFF#16 1 = true ∧ ∀ base : U16, crossed base 0 = false

/-- Relative (R121; which pages are compared is decision D7): the signed displacement added to the address after the branch, modulo 65536. -/
def Obligations.RelativeTargetIsSignedDisplacement : Prop :=
  ∀ (s : State) (d : Byte),
    ((resolve (.relative d) s).ea.toNat : Int) =
      ((s.pc.toNat : Int) + 2 + (if d.toNat < 0x80 then (d.toNat : Int) else (d.toNat : Int) - 256)) % 65536 ∧
    ((resolve (.relative d) s).crossed = true ↔ (s.pc + 2) &&& 0xFF00#16 ≠ (resolve (.relative d) s).ea &&& 0xFF00#16) ∧
    (Operand.relative d).length = 2

/-- A fetched instruction's operand is assembled from the bytes after its opcode byte (R84, R110), and the datum it reads is the byte at its effective
address, for Immediate too (R111): carrying the operand in the instruction drops no bus read (log 5). -/
def Obligations.FetchedOperandIsWhatTheBusHolds : Prop :=
  ∀ (s : State) (o : Operand), s.fetched.operand = some o →
    s.fetched.opcode = s.read s.pc ∧
    o = Operand.ofBytes o.mode (s.read (s.pc + 1)) (s.read (s.pc + 2)) ∧
    operandValue o s = s.read (resolve o s).ea

/-! ## Loads and stores (41_load_store.md). The cycle figures but LDA Immediate's and STA ZeroPageX's are decision D3. -/

/-- LDA in its eight modes (R131). -/
def Obligations.LdaLoadsAccumulator : Prop :=
  ∀ (s : State) (b : Byte) (w : U16),
    exec (.ldaImmediate b) s = .next (toA s b 2 2) ∧
    exec (.ldaZeroPage b) s = .next (toA s (s.read (zeroPageAddress b)) 2 3) ∧
    exec (.ldaZeroPageX b) s = .next (toA s (s.read (zeroPageAddress (b + s.x))) 2 4) ∧
    exec (.ldaAbsolute w) s = .next (toA s (s.read w) 3 4) ∧
    exec (.ldaAbsoluteX w) s = .next (toA s (s.read (w + s.x.setWidth 16)) 3 (4 + (crossed w s.x).toNat)) ∧
    exec (.ldaAbsoluteY w) s = .next (toA s (s.read (w + s.y.setWidth 16)) 3 (4 + (crossed w s.y).toNat)) ∧
    exec (.ldaIndirectX b) s = .next (toA s (s.read (zeroPagePointer s (b + s.x))) 2 6) ∧
    exec (.ldaIndirectY b) s = .next (toA s (s.read (zeroPagePointer s b + s.y.setWidth 16)) 2
      (5 + (crossed (zeroPagePointer s b) s.y).toNat))

/-- LDX (R132) and LDY (R133), each in its five modes: LDX indexes with Y, LDY with X. -/
def Obligations.LdxAndLdyLoadIndexRegisters : Prop :=
  ∀ (s : State) (b : Byte) (w : U16),
    exec (.ldxImmediate b) s = .next (toX s b 2 2) ∧
    exec (.ldxZeroPage b) s = .next (toX s (s.read (zeroPageAddress b)) 2 3) ∧
    exec (.ldxZeroPageY b) s = .next (toX s (s.read (zeroPageAddress (b + s.y))) 2 4) ∧
    exec (.ldxAbsolute w) s = .next (toX s (s.read w) 3 4) ∧
    exec (.ldxAbsoluteY w) s = .next (toX s (s.read (w + s.y.setWidth 16)) 3 (4 + (crossed w s.y).toNat)) ∧
    exec (.ldyImmediate b) s = .next (toY s b 2 2) ∧
    exec (.ldyZeroPage b) s = .next (toY s (s.read (zeroPageAddress b)) 2 3) ∧
    exec (.ldyZeroPageX b) s = .next (toY s (s.read (zeroPageAddress (b + s.x))) 2 4) ∧
    exec (.ldyAbsolute w) s = .next (toY s (s.read w) 3 4) ∧
    exec (.ldyAbsoluteX w) s = .next (toY s (s.read (w + s.x.setWidth 16)) 3 (4 + (crossed w s.x).toNat))

/-- STA in its seven modes (R134): no flag, no register but PC, no page-cross cycle. -/
def Obligations.StaStoresAccumulator : Prop :=
  ∀ (s : State) (b : Byte) (w : U16),
    exec (.staZeroPage b) s = .next (stored s (zeroPageAddress b) s.a 2 3) ∧
    exec (.staZeroPageX b) s = .next (stored s (zeroPageAddress (b + s.x)) s.a 2 4) ∧
    exec (.staAbsolute w) s = .next (stored s w s.a 3 4) ∧
    exec (.staAbsoluteX w) s = .next (stored s (w + s.x.setWidth 16) s.a 3 5) ∧
    exec (.staAbsoluteY w) s = .next (stored s (w + s.y.setWidth 16) s.a 3 5) ∧
    exec (.staIndirectX b) s = .next (stored s (zeroPagePointer s (b + s.x)) s.a 2 6) ∧
    exec (.staIndirectY b) s = .next (stored s (zeroPagePointer s b + s.y.setWidth 16) s.a 2 6)

/-- STX (R135) and STY (R136), each in its three modes. -/
def Obligations.StxAndStyStoreIndexRegisters : Prop :=
  ∀ (s : State) (b : Byte) (w : U16),
    exec (.stxZeroPage b) s = .next (stored s (zeroPageAddress b) s.x 2 3) ∧
    exec (.stxZeroPageY b) s = .next (stored s (zeroPageAddress (b + s.y)) s.x 2 4) ∧
    exec (.stxAbsolute w) s = .next (stored s w s.x 3 4) ∧
    exec (.styZeroPage b) s = .next (stored s (zeroPageAddress b) s.y 2 3) ∧
    exec (.styZeroPageX b) s = .next (stored s (zeroPageAddress (b + s.x)) s.y 2 4) ∧
    exec (.styAbsolute w) s = .next (stored s w s.y 3 4)

/-! ## Transfers, increments and decrements (42_transfer.md, 43_incdec.md). The cycle figures but INX's are decision D3. -/

/-- The six transfers (R141 to R146): the copied value and N, Z from it; TXS sets no flag. -/
def Obligations.TransfersCopyARegister : Prop :=
  ∀ s : State,
    exec .tax s = .next (toX s s.a 1 2) ∧
    exec .tay s = .next (toY s s.a 1 2) ∧
    exec .tsx s = .next (toX s s.s 1 2) ∧
    exec .txa s = .next (toA s s.x 1 2) ∧
    exec .txs s = .next { passed s 1 2 with s := s.x } ∧
    exec .tya s = .next (toA s s.y 1 2)

/-- INC (R151) and DEC (R152), each in its four modes: the byte at the effective address plus or minus 1 modulo 256, N and Z from the new value, read before
the write and also where open bus discards it. -/
def Obligations.IncAndDecModifyMemory : Prop :=
  ∀ (s : State) (b : Byte) (w : U16),
    let up (a : U16) : Byte := BitVec.ofNat 8 ((s.read a).toNat + 1)
    let down (a : U16) : Byte := BitVec.ofNat 8 ((s.read a).toNat + 255)
    exec (.incZeroPage b) s = .next (replaced s (zeroPageAddress b) (up (zeroPageAddress b)) 2 5) ∧
    exec (.incZeroPageX b) s = .next (replaced s (zeroPageAddress (b + s.x)) (up (zeroPageAddress (b + s.x))) 2 6) ∧
    exec (.incAbsolute w) s = .next (replaced s w (up w) 3 6) ∧
    exec (.incAbsoluteX w) s = .next (replaced s (w + s.x.setWidth 16) (up (w + s.x.setWidth 16)) 3 7) ∧
    exec (.decZeroPage b) s = .next (replaced s (zeroPageAddress b) (down (zeroPageAddress b)) 2 5) ∧
    exec (.decZeroPageX b) s = .next (replaced s (zeroPageAddress (b + s.x)) (down (zeroPageAddress (b + s.x))) 2 6) ∧
    exec (.decAbsolute w) s = .next (replaced s w (down w) 3 6) ∧
    exec (.decAbsoluteX w) s = .next (replaced s (w + s.x.setWidth 16) (down (w + s.x.setWidth 16)) 3 7)

/-- INX, INY, DEX, DEY (R153 to R156). -/
def Obligations.RegisterIncrementAndDecrement : Prop :=
  ∀ s : State,
    exec .inx s = .next (toX s (BitVec.ofNat 8 (s.x.toNat + 1)) 1 2) ∧
    exec .iny s = .next (toY s (BitVec.ofNat 8 (s.y.toNat + 1)) 1 2) ∧
    exec .dex s = .next (toX s (BitVec.ofNat 8 (s.x.toNat + 255)) 1 2) ∧
    exec .dey s = .next (toY s (BitVec.ofNat 8 (s.y.toNat + 255)) 1 2)

/-- INC then DEC, or DEC then INC, of one byte that has storage restores every byte of memory, leaves C, V, D and I alone and N and Z those of that byte (R150). -/
def Obligations.IncThenDecRestoresTheByte : Prop :=
  ∀ (s : State) (b : Byte) (w : U16) (i j : Instr) (ea : U16),
    (i, j, ea) ∈ [(Instr.incZeroPage b, Instr.decZeroPage b, zeroPageAddress b),
      (.incZeroPageX b, .decZeroPageX b, zeroPageAddress (b + s.x)),
      (.incAbsolute w, .decAbsolute w, w),
      (.incAbsoluteX w, .decAbsoluteX w, w + s.x.setWidth 16),
      (.decZeroPage b, .incZeroPage b, zeroPageAddress b),
      (.decZeroPageX b, .incZeroPageX b, zeroPageAddress (b + s.x)),
      (.decAbsolute w, .incAbsolute w, w),
      (.decAbsoluteX w, .incAbsoluteX w, w + s.x.setWidth 16)] →
    ea.toNat < 0x4018 →
    ∃ t u, exec i s = .next t ∧ exec j t = .next u ∧ (∀ a, u.read a = s.read a) ∧ u.p = setNZ s.p (s.read ea)

/-! ## Jump and branches (44_jump_branch.md). The base cycle figures are decision D3; the branch additions are the source's. -/

/-- JMP (R160): PC at the effective address, nothing else but the cycles; the Indirect pointer wraps inside its page (R118, D5). -/
def Obligations.JmpSetsProgramCounter : Prop :=
  ∀ (s : State) (w : U16),
    exec (.jmpAbsolute w) s = .next { s with pc := w, remainingCycles := 2 } ∧
    exec (.jmpIndirect w) s = .next { s with
      pc := word (s.read (if loByte w = 0xFF#8 then w - 0x00FF#16 else w + 1)) (s.read w)
      remainingCycles := 4 }

/-- The eight branches (R161 to R169): each tests one flag at one polarity, changes PC and the cycles and nothing else. -/
def Obligations.BranchesTestOneFlag : Prop :=
  ∀ (s : State) (d : Byte),
    exec (.bcc d) s = .next (branched s (!s.p.getLsbD 0) d) ∧
    exec (.bcs d) s = .next (branched s (s.p.getLsbD 0) d) ∧
    exec (.beq d) s = .next (branched s (s.p.getLsbD 1) d) ∧
    exec (.bne d) s = .next (branched s (!s.p.getLsbD 1) d) ∧
    exec (.bmi d) s = .next (branched s (s.p.getLsbD 7) d) ∧
    exec (.bpl d) s = .next (branched s (!s.p.getLsbD 7) d) ∧
    exec (.bvc d) s = .next (branched s (!s.p.getLsbD 6) d) ∧
    exec (.bvs d) s = .next (branched s (s.p.getLsbD 6) d)

/-! ## ADC and SBC (45_arith.md; decision D4, the cycle figures D3) -/

/-- ADC in its eight modes (R181). -/
def Obligations.AdcAddsWithCarry : Prop :=
  ∀ (s : State) (b : Byte) (w : U16),
    exec (.adcImmediate b) s = .next (summed s b 2 2) ∧
    exec (.adcZeroPage b) s = .next (summed s (s.read (zeroPageAddress b)) 2 3) ∧
    exec (.adcZeroPageX b) s = .next (summed s (s.read (zeroPageAddress (b + s.x))) 2 4) ∧
    exec (.adcAbsolute w) s = .next (summed s (s.read w) 3 4) ∧
    exec (.adcAbsoluteX w) s = .next (summed s (s.read (w + s.x.setWidth 16)) 3 (4 + (crossed w s.x).toNat)) ∧
    exec (.adcAbsoluteY w) s = .next (summed s (s.read (w + s.y.setWidth 16)) 3 (4 + (crossed w s.y).toNat)) ∧
    exec (.adcIndirectX b) s = .next (summed s (s.read (zeroPagePointer s (b + s.x))) 2 6) ∧
    exec (.adcIndirectY b) s = .next (summed s (s.read (zeroPagePointer s b + s.y.setWidth 16)) 2
      (5 + (crossed (zeroPagePointer s b) s.y).toNat))

/-- SBC in its eight modes (R182): ADC of the one's complement, `n = m ^ 0xFF`. -/
def Obligations.SbcSubtractsWithBorrow : Prop :=
  ∀ (s : State) (b : Byte) (w : U16),
    exec (.sbcImmediate b) s = .next (summed s (b ^^^ 0xFF#8) 2 2) ∧
    exec (.sbcZeroPage b) s = .next (summed s (s.read (zeroPageAddress b) ^^^ 0xFF#8) 2 3) ∧
    exec (.sbcZeroPageX b) s = .next (summed s (s.read (zeroPageAddress (b + s.x)) ^^^ 0xFF#8) 2 4) ∧
    exec (.sbcAbsolute w) s = .next (summed s (s.read w ^^^ 0xFF#8) 3 4) ∧
    exec (.sbcAbsoluteX w) s = .next (summed s (s.read (w + s.x.setWidth 16) ^^^ 0xFF#8) 3 (4 + (crossed w s.x).toNat)) ∧
    exec (.sbcAbsoluteY w) s = .next (summed s (s.read (w + s.y.setWidth 16) ^^^ 0xFF#8) 3 (4 + (crossed w s.y).toNat)) ∧
    exec (.sbcIndirectX b) s = .next (summed s (s.read (zeroPagePointer s (b + s.x)) ^^^ 0xFF#8) 2 6) ∧
    exec (.sbcIndirectY b) s = .next (summed s (s.read (zeroPagePointer s b + s.y.setWidth 16) ^^^ 0xFF#8) 2
      (5 + (crossed (zeroPagePointer s b) s.y).toNat))

/-- What ADC's flags mean (R181): C is unsigned overflow, V is 1 exactly when the signed sum lies outside -128..127. -/
def Obligations.AdcFlagsReportOverflow : Prop :=
  ∀ (s : State) (m : Byte), ∃ t, exec (.adcImmediate m) s = .next t ∧
    t.a.toNat = (s.a.toNat + m.toNat + (s.flag .c).toNat) % 256 ∧
    (t.flag .c = true ↔ 256 ≤ s.a.toNat + m.toNat + (s.flag .c).toNat) ∧
    (t.flag .v = true ↔ s.a.toInt + m.toInt + (s.flag .c).toNat < -128 ∨ 127 < s.a.toInt + m.toInt + (s.flag .c).toNat) ∧
    (t.flag .n = true ↔ 0x80 ≤ t.a.toNat) ∧ (t.flag .z = true ↔ t.a = 0)

/-- What SBC computes, as a difference (R182): `d = A - m - (1 - C)`; C is 1 exactly when no borrow occurred, V exactly when the signed difference lies outside
-128..127, by either of the rule's two formulas. -/
def Obligations.SbcIsSubtractionWithBorrow : Prop :=
  ∀ (s : State) (m : Byte), ∃ t, exec (.sbcImmediate m) s = .next t ∧
    let borrow : Int := 1 - (s.flag .c).toNat
    (t.a.toNat : Int) = ((s.a.toNat : Int) - m.toNat - borrow) % 256 ∧
    (t.flag .c = true ↔ 0 ≤ (s.a.toNat : Int) - m.toNat - borrow) ∧
    (t.flag .v = true ↔ s.a.toInt - m.toInt - borrow < -128 ∨ 127 < s.a.toInt - m.toInt - borrow) ∧
    t.flag .v = (((s.a ^^^ m) &&& (s.a ^^^ t.a) &&& 0x80#8) != 0) ∧
    (t.flag .n = true ↔ 0x80 ≤ t.a.toNat) ∧ (t.flag .z = true ↔ t.a = 0)

/-! ## Stack and subroutine (46_stack_subroutine.md; decisions D8 to D11, the cycle figures D3) -/

/-- PHA (R192) and PHP (R193): the byte at 0x0100 + S, then S decremented modulo 256; PHP pushes P with bits 5 and 4 set. -/
def Obligations.PushesWriteThenDecrement : Prop :=
  ∀ s : State,
    exec .pha s = .next { stored s (0x0100#16 + s.s.setWidth 16) s.a 1 3 with s := s.s - 1 } ∧
    exec .php s = .next { stored s (0x0100#16 + s.s.setWidth 16) (s.p ||| 0x30#8) 1 3 with s := s.s - 1 }

/-- PLA (R194) and PLP (R195): S incremented modulo 256, then the byte at 0x0100 + S; PLP discards bits 5 and 4. -/
def Obligations.PullsIncrementThenRead : Prop :=
  ∀ s : State,
    let v := s.read (0x0100#16 + (s.s + 1).setWidth 16)
    exec .pla s = .next { toA s v 1 4 with s := s.s + 1 } ∧
    exec .plp s = .next { passed s 1 4 with s := s.s + 1, p := v &&& 0xCF#8 }

/-- JSR (R196): PC + 2 pushed high byte first, PC at the target. -/
def Obligations.JsrPushesReturnAddress : Prop :=
  ∀ (s : State) (w : U16),
    exec (.jsr w) s = .next
      { (s.write (0x0100#16 + s.s.setWidth 16) (hiByte (s.pc + 2))).write (0x0100#16 + (s.s - 1).setWidth 16) (loByte (s.pc + 2)) with
        s := s.s - 2, pc := w, remainingCycles := 5 }

/-- RTS (R197) pulls low then high and adds 1; RTI (R198) pulls P, low, high and adds nothing. -/
def Obligations.ReturnsPullTheProgramCounter : Prop :=
  ∀ s : State,
    let pull (k : Byte) : Byte := s.read (0x0100#16 + (s.s + k).setWidth 16)
    exec .rts s = .next { s with s := s.s + 2, pc := word (pull 2) (pull 1) + 1, remainingCycles := 5 } ∧
    exec .rti s = .next { s with s := s.s + 3, p := pull 1 &&& 0xCF#8, pc := word (pull 3) (pull 2), remainingCycles := 5 }

/-- A pull after a push returns the byte and restores S, for every S (R191, D8); PLP after PHP leaves P unchanged where its bits 5 and 4 are 0, as the
invariant says they are (R195, D9). -/
def Obligations.PullUndoesPush : Prop :=
  ∀ (s : State) (v : Byte),
    (s.push v).pulled = v ∧ (s.push v).afterPull.s = s.s ∧
    (s.p &&& 0x30#8 = 0 → ∃ t u, exec .php s = .next t ∧ exec .plp t = .next u ∧ u.p = s.p ∧ u.s = s.s ∧ u.pc = s.pc + 2)

/-- RTS undoes JSR (R197, D10): in every state with the stack bytes and S that JSR left, it continues at the byte after the JSR and restores S. -/
def Obligations.RtsReturnsAfterJsr : Prop :=
  ∀ (s : State) (w : U16), ∃ t, exec (.jsr w) s = .next t ∧
    ∀ u : State, u.s = t.s → u.ram = t.ram →
      ∃ r, exec .rts u = .next r ∧ r.pc = s.pc + 3 ∧ r.s = s.s

/-! ## Frames: what every instruction leaves alone -/

/-- A register is written only by the instructions that R21, R22, R23 and R26 list, and no instruction touches the peripheral agent's coming actions. -/
def Obligations.RegistersChangeOnlyByTheirWriters : Prop :=
  ∀ (i : Instr) (s : State), ∃ t, exec i s = .next t ∧
    (∀ r : Reg, i.mnemonic ∉ regWriters r → t.reg r = s.reg r) ∧ t.env = s.env

/-- Every byte keeps its value but those at the addresses the instruction stores to (and their mirrors), computed by `storeAddresses` from the state before. -/
def Obligations.MemoryChangesOnlyWhereStored : Prop :=
  ∀ (i : Instr) (s : State), ∃ t, exec i s = .next t ∧
    ∀ a : U16, (∀ b ∈ storeAddresses i s, route b ≠ route a) → t.read a = s.read a

/-- What the program counter becomes (R25; that an unmapped byte leaves it is decision D2): past the instruction, or, for a control transfer, the target with nothing
added; for RTS and RTI that target is the pulled word, plus 1 for RTS (R197, R198; decisions D8, D10). -/
def Obligations.ProgramCounterAdvancesByLength : Prop :=
  ∀ (i : Instr) (s : State), ∃ t, exec i s = .next t ∧
    (transfersControl i s = false → t.pc = s.pc + BitVec.ofNat 16 i.length) ∧
    (∀ o, i.operand = some o → i.mnemonic = .jmp ∨ i.mnemonic = .jsr ∨ branchTaken s i.mnemonic = true →
      t.pc = (resolve o s).ea) ∧
    let pull (k : Byte) : Byte := s.read (0x0100#16 + (s.s + k).setWidth 16)
    (i.mnemonic = .rts → t.pc = word (pull 2) (pull 1) + 1) ∧
    (i.mnemonic = .rti → t.pc = word (pull 3) (pull 2))

/-- Who writes and who reads A (R21): no other instruction writes it, an instruction outside its readers does the same whatever it holds and writes the same
A where it writes A, and no addressing mode reads it. -/
def Obligations.AccumulatorReadersAndWriters : Prop :=
  (∀ (i : Instr) (s : State), ∃ t, exec i s = .next t ∧ (i.mnemonic ∉ [Mnemonic.lda, .txa, .tya, .pla, .adc, .sbc] → t.a = s.a)) ∧
  (∀ (i : Instr) (s : State) (v : Byte), i.mnemonic ∉ [Mnemonic.sta, .tax, .tay, .pha, .adc, .sbc] →
    ∃ t t', exec i s = .next t ∧ exec i { s with a := v } = .next t' ∧ { t' with a := t.a } = t ∧
      t'.a = (if i.mnemonic ∈ [Mnemonic.lda, .txa, .tya, .pla] then t.a else v)) ∧
  ∀ (o : Operand) (s : State) (v : Byte), resolve o { s with a := v } = resolve o s

/-! ## The tick (47_dispatch.md) and the whole machine -/

/-- A fetch tick runs the decoded instruction (R202); a step is a tick and the peripheral agent's gap after it (R65; the form of the gap is the model's, log 2). -/
def Obligations.StepRunsTheDecodedInstruction : Prop :=
  ∀ s : State,
    (∀ i : Instr, s.remainingCycles = 0 → decode (bytesAtPc s) = .ok i →
      tick s = exec i s ∧ ∃ t, exec i s = .next t ∧ step s = .next t.gap) ∧
    (0 < s.remainingCycles → step s = .next ({ s with remainingCycles := s.remainingCycles - 1 } : State).gap)

/-- A drain tick (R204): `remainingCycles` decremented and no other action. -/
def Obligations.DrainTickOnlyCountsDown : Prop :=
  ∀ s : State, 0 < s.remainingCycles → tick s = .next { s with remainingCycles := s.remainingCycles - 1 }

/-- An unmapped opcode byte changes no state (R203, decision D2), whatever the number of ticks; PC and `remainingCycles` stay. -/
def Obligations.UnmappedOpcodeParks : Prop :=
  (∀ (op : Byte) (s : State), exec (.unmapped op) s = .next s) ∧
  ∀ s : State, s.parked = true → ∀ k, runTicks k s = .next s

/-- Every tick and every step completes (R200, R220): neither a fault nor a refusal from any state. -/
def Obligations.EveryStepCompletes : Prop :=
  ∀ s : State, (∃ t, tick s = .next t) ∧ ∃ t, step s = .next t

/-- Each instruction's ticks are those of the cycle table by class and mode (R205 to R208, decision D3): `remainingCycles` is left at the cost less 1, the cost is
2 to 7, and only an unmapped byte has none. -/
def Obligations.CyclesFollowTheCostTable : Prop :=
  ∀ (i : Instr) (s : State),
    (cost i s = none ↔ i.mnemonic = .unmapped) ∧
    ∀ n, cost i s = some n → 2 ≤ n ∧ n ≤ 7 ∧ ∃ t, exec i s = .next t ∧ t.remainingCycles = n - 1

/-- An instruction of cost `n` fetched at a boundary occupies exactly `n` ticks (R209): its whole effect is there after the first, and only `remainingCycles` counts
down in the rest. -/
def Obligations.InstructionOccupiesItsCost : Prop :=
  ∀ (s : State) (n : Nat), s.remainingCycles = 0 → cost s.fetched s = some n →
    ∃ t, exec s.fetched s = .next t ∧
      ∀ k, 1 ≤ k → k ≤ n → runTicks k s = .next { t with remainingCycles := n - k }

/-- A self-loop is steady (R248 b, decision D23): after the ticks of its one instruction the state is the same. -/
def Obligations.SelfLoopReturnsToItself : Prop :=
  ∀ s : State, s.selfLoop = true → ∃ n, cost s.fetched s = some n ∧ runTicks n s = .next s

/-- The peripheral agent acts in the gap after a tick, on the two windows only (R2, R65): with no action coming the gap changes nothing; with one it leaves every
register and RAM alone, every address outside the windows reads as before, and each window element holds the last byte the action writes to it or else what it
held. That its actions are the list `env` of the state, consumed one a gap, is the model's choice (log 2). -/
def Obligations.PeripheralGapWritesOnlyWindows : Prop :=
  ∀ s : State,
    { s.gap with ppu := s.ppu, apu := s.apu, env := s.env } = s ∧
    (∀ a : U16, a.toNat < 0x2000 ∨ 0x4018 ≤ a.toNat → s.gap.read a = s.read a) ∧
    (s.env = [] → s.gap = s) ∧
    ∀ (ws : PeripheralAction) (rest : List PeripheralAction), s.env = ws :: rest →
      s.gap.env = rest ∧
      (∀ i : Fin 8, Memory.read s.gap.ppu i.val = (lastWrite ws (.ppu i)).getD (Memory.read s.ppu i.val)) ∧
      ∀ i : Fin 24, Memory.read s.gap.apu i.val = (lastWrite ws (.apu i)).getD (Memory.read s.apu i.val)

/-- Placing a table word where the next step fetches it (log 3): the next tick is exactly the instruction the decoder reads from it, from any state, and the
placing changes no register but PC, that only where three bytes at PC have no storage, and no byte but those three and their mirrors. -/
def Obligations.PlacedWordRunsNext : Prop :=
  ∀ (s : State) (nbits w : Nat),
    let t := s.withFetchWord nbits w
    (∃ i, decodeTableWord nbits w = some i ∧ tick t = exec i t) ∧
    { t with pc := s.pc, remainingCycles := s.remainingCycles, ram := s.ram, ppu := s.ppu, apu := s.apu } = s ∧
    t.pc = (if s.pc.toNat + 2 < 0x4018 then s.pc else 0x0000#16) ∧
    ∀ a : U16, (∀ k : Fin 3, route (t.pc + BitVec.ofNat 16 k.val) ≠ route a) → t.read a = s.read a

/-- The invariants of R210, `P & 0x30 == 0` and `remainingCycles <= 6`, and the arrays' canonical form are kept by every step from every state that has them. -/
def Obligations.EveryStepKeepsTheInvariant : Prop :=
  ∀ s s' : State, s.inv = true → step s = .next s' → s'.inv = true

/-- The state after reset has the invariant, whatever canonical contents, entry address and peripheral writes the host and the environment choose (R37, R241, R244). -/
def Obligations.ResetHasTheInvariant : Prop :=
  State.reset.inv = true ∧
  ∀ (ram ppu apu : Memory) (entry : U16) (env : List PeripheralAction),
    Memory.wf 2048 ram = true → Memory.wf 8 ppu = true → Memory.wf 24 apu = true →
      (State.launch ram ppu apu entry env).inv = true

/-- What reset leaves (R37): A, X, Y and P zero, S 0xFF; PC 0x0000 unless the host sets it and `remainingCycles` 0 are decision D12. It holds for every launch. -/
def Obligations.ResetRegisterValues : Prop :=
  State.reset.pc = 0x0000#16 ∧
  State.reset = State.launch State.reset.ram State.reset.ppu State.reset.apu State.reset.pc State.reset.env ∧
  ∀ (ram ppu apu : Memory) (entry : U16) (env : List PeripheralAction),
    let s := State.launch ram ppu apu entry env
    s.a = 0 ∧ s.x = 0 ∧ s.y = 0 ∧ s.s = 0xFF#8 ∧ s.p = 0 ∧ s.pc = entry ∧ s.remainingCycles = 0 ∧
      s.ram = ram ∧ s.ppu = ppu ∧ s.apu = apu
end

