-- ==== Sys2Proof/Laws/Memory.lean ====
section
/-! SUPPORT. One storage array: read after write, and the canonical form that every write keeps. -/

namespace Sys2Proof.Machine

theorem Memory.read_of_startsAbove {m : Memory} {i j : Nat} (h : Memory.startsAbove i m = true) (hj : j ≤ i) :
    Memory.read m j = Config.unlistedByte := by
  cases m with
  | nil => rfl
  | cons c m =>
    obtain ⟨k, v⟩ := c
    simp only [Memory.startsAbove, decide_eq_true_eq] at h
    have hk : k ≠ j := by omega
    have hjk : j < k := by omega
    simp [Memory.read, hk, hjk]

/-- Reading an array after an element was put in front of it. -/
theorem Memory.read_push (m : Memory) (i j : Nat) (v : Byte) :
    Memory.read (Memory.push i v m) j =
      if j = i then v else if j < i then Config.unlistedByte else Memory.read m j := by
  unfold Memory.push
  split
  · rename_i h
    obtain ⟨rfl, hs⟩ := h
    split
    · subst j; exact Memory.read_of_startsAbove hs le_rfl
    · split
      · exact Memory.read_of_startsAbove hs (by omega)
      · rfl
  · simp [Memory.read, eq_comm]

/-- Reading any element after one was written. -/
theorem Memory.read_write (m : Memory) (i j : Nat) (v : Byte) :
    Memory.read (Memory.write m i v) j = if j = i then v else Memory.read m j := by
  induction m with
  | nil =>
    rw [Memory.write, Memory.read_push]
    simp [Memory.read]
  | cons c m ih =>
    obtain ⟨k, u⟩ := c
    rw [Memory.write]
    split
    · rw [Memory.read_push]
      rename_i hik
      split
      · rfl
      · split
        · have hk : k ≠ j := by omega
          have hjk : j < k := by omega
          simp [Memory.read, hk, hjk]
        · rfl
    · split
      · subst k
        rw [Memory.read_push]
        split
        · rfl
        · rename_i hji
          simp [Memory.read, Ne.symm hji]
      · rename_i hik hne
        rw [Memory.read, Memory.read, ih]
        split
        · rename_i hkj
          have : ¬ j = i := by omega
          simp [this]
        · split
          · have : ¬ j = i := by omega
            simp [this]
          · rfl

theorem Memory.wf_push {size : Nat} {m : Memory} {i : Nat} {v : Byte} (hm : Memory.wf size m = true)
    (hs : Memory.startsAbove i m = true) (hi : i < size) : Memory.wf size (Memory.push i v m) = true := by
  unfold Memory.push
  split
  · exact hm
  · rename_i h
    have hv : v ≠ Config.unlistedByte := fun hv => h ⟨hv, hs⟩
    simp [Memory.wf, hm, hs, hi, hv]

theorem Memory.startsAbove_of_le {m : Memory} {i k : Nat} (h : Memory.startsAbove k m = true) (hik : i ≤ k) :
    Memory.startsAbove i m = true := by
  cases m with
  | nil => rfl
  | cons c m =>
    obtain ⟨l, u⟩ := c
    simp only [Memory.startsAbove, decide_eq_true_eq] at h ⊢
    omega

theorem Memory.startsAbove_push {m : Memory} {i k : Nat} {v : Byte} (hki : k < i)
    (h : Memory.startsAbove i m = true) : Memory.startsAbove k (Memory.push i v m) = true := by
  unfold Memory.push
  split
  · exact Memory.startsAbove_of_le h (by omega)
  · simpa [Memory.startsAbove] using hki

theorem Memory.startsAbove_write {m : Memory} {size i k : Nat} {v : Byte} (hm : Memory.wf size m = true)
    (hki : k < i) (h : Memory.startsAbove k m = true) : Memory.startsAbove k (Memory.write m i v) = true := by
  cases m with
  | nil => exact Memory.startsAbove_push hki rfl
  | cons c m =>
    obtain ⟨l, u⟩ := c
    simp only [Memory.wf, Bool.and_eq_true] at hm
    rw [Memory.write]
    split
    · exact Memory.startsAbove_push hki (by simpa [Memory.startsAbove])
    · split
      · exact Memory.startsAbove_push hki (by rename_i hil; exact hil ▸ hm.1.2)
      · simpa [Memory.startsAbove] using h

/-- A write inside the array keeps its canonical form. -/
theorem Memory.wf_write {size : Nat} {m : Memory} {i : Nat} (v : Byte) (hm : Memory.wf size m = true)
    (hi : i < size) : Memory.wf size (Memory.write m i v) = true := by
  induction m with
  | nil => exact Memory.wf_push rfl rfl hi
  | cons c m ih =>
    obtain ⟨k, u⟩ := c
    have hc := hm
    simp only [Memory.wf, Bool.and_eq_true] at hc
    obtain ⟨⟨⟨hk, hu⟩, hs⟩, hm'⟩ := hc
    rw [Memory.write]
    split
    · exact Memory.wf_push hm (by simpa [Memory.startsAbove]) hi
    · split
      · rename_i hik
        exact Memory.wf_push hm' (hik ▸ hs) hi
      · have hki : k < i := by omega
        simp only [Memory.wf, Bool.and_eq_true]
        exact ⟨⟨⟨hk, hu⟩, Memory.startsAbove_write hm' hki hs⟩, ih hm'⟩

end Sys2Proof.Machine
end

