-- ==== Sys2Proof/Laws/State.lean ====
section
/-! SUPPORT. One lemma per field for every named update of the state. -/

namespace Sys2Proof.Machine

/-! ## Registers and PC -/

@[simp] theorem State.setRegA_a (s : State) (v : Byte) : (s.setReg .a v).a = v := rfl
@[simp] theorem State.setRegA_x (s : State) (v : Byte) : (s.setReg .a v).x = s.x := rfl
@[simp] theorem State.setRegA_y (s : State) (v : Byte) : (s.setReg .a v).y = s.y := rfl
@[simp] theorem State.setRegA_s (s : State) (v : Byte) : (s.setReg .a v).s = s.s := rfl
@[simp] theorem State.setRegA_p (s : State) (v : Byte) : (s.setReg .a v).p = s.p := rfl
@[simp] theorem State.setRegA_pc (s : State) (v : Byte) : (s.setReg .a v).pc = s.pc := rfl
@[simp] theorem State.setRegA_remainingCycles (s : State) (v : Byte) : (s.setReg .a v).remainingCycles = s.remainingCycles := rfl
@[simp] theorem State.setRegA_ram (s : State) (v : Byte) : (s.setReg .a v).ram = s.ram := rfl
@[simp] theorem State.setRegA_ppu (s : State) (v : Byte) : (s.setReg .a v).ppu = s.ppu := rfl
@[simp] theorem State.setRegA_apu (s : State) (v : Byte) : (s.setReg .a v).apu = s.apu := rfl
@[simp] theorem State.setRegA_env (s : State) (v : Byte) : (s.setReg .a v).env = s.env := rfl

@[simp] theorem State.setRegX_a (s : State) (v : Byte) : (s.setReg .x v).a = s.a := rfl
@[simp] theorem State.setRegX_x (s : State) (v : Byte) : (s.setReg .x v).x = v := rfl
@[simp] theorem State.setRegX_y (s : State) (v : Byte) : (s.setReg .x v).y = s.y := rfl
@[simp] theorem State.setRegX_s (s : State) (v : Byte) : (s.setReg .x v).s = s.s := rfl
@[simp] theorem State.setRegX_p (s : State) (v : Byte) : (s.setReg .x v).p = s.p := rfl
@[simp] theorem State.setRegX_pc (s : State) (v : Byte) : (s.setReg .x v).pc = s.pc := rfl
@[simp] theorem State.setRegX_remainingCycles (s : State) (v : Byte) : (s.setReg .x v).remainingCycles = s.remainingCycles := rfl
@[simp] theorem State.setRegX_ram (s : State) (v : Byte) : (s.setReg .x v).ram = s.ram := rfl
@[simp] theorem State.setRegX_ppu (s : State) (v : Byte) : (s.setReg .x v).ppu = s.ppu := rfl
@[simp] theorem State.setRegX_apu (s : State) (v : Byte) : (s.setReg .x v).apu = s.apu := rfl
@[simp] theorem State.setRegX_env (s : State) (v : Byte) : (s.setReg .x v).env = s.env := rfl

@[simp] theorem State.setRegY_a (s : State) (v : Byte) : (s.setReg .y v).a = s.a := rfl
@[simp] theorem State.setRegY_x (s : State) (v : Byte) : (s.setReg .y v).x = s.x := rfl
@[simp] theorem State.setRegY_y (s : State) (v : Byte) : (s.setReg .y v).y = v := rfl
@[simp] theorem State.setRegY_s (s : State) (v : Byte) : (s.setReg .y v).s = s.s := rfl
@[simp] theorem State.setRegY_p (s : State) (v : Byte) : (s.setReg .y v).p = s.p := rfl
@[simp] theorem State.setRegY_pc (s : State) (v : Byte) : (s.setReg .y v).pc = s.pc := rfl
@[simp] theorem State.setRegY_remainingCycles (s : State) (v : Byte) : (s.setReg .y v).remainingCycles = s.remainingCycles := rfl
@[simp] theorem State.setRegY_ram (s : State) (v : Byte) : (s.setReg .y v).ram = s.ram := rfl
@[simp] theorem State.setRegY_ppu (s : State) (v : Byte) : (s.setReg .y v).ppu = s.ppu := rfl
@[simp] theorem State.setRegY_apu (s : State) (v : Byte) : (s.setReg .y v).apu = s.apu := rfl
@[simp] theorem State.setRegY_env (s : State) (v : Byte) : (s.setReg .y v).env = s.env := rfl

@[simp] theorem State.setRegS_a (s : State) (v : Byte) : (s.setReg .s v).a = s.a := rfl
@[simp] theorem State.setRegS_x (s : State) (v : Byte) : (s.setReg .s v).x = s.x := rfl
@[simp] theorem State.setRegS_y (s : State) (v : Byte) : (s.setReg .s v).y = s.y := rfl
@[simp] theorem State.setRegS_s (s : State) (v : Byte) : (s.setReg .s v).s = v := rfl
@[simp] theorem State.setRegS_p (s : State) (v : Byte) : (s.setReg .s v).p = s.p := rfl
@[simp] theorem State.setRegS_pc (s : State) (v : Byte) : (s.setReg .s v).pc = s.pc := rfl
@[simp] theorem State.setRegS_remainingCycles (s : State) (v : Byte) : (s.setReg .s v).remainingCycles = s.remainingCycles := rfl
@[simp] theorem State.setRegS_ram (s : State) (v : Byte) : (s.setReg .s v).ram = s.ram := rfl
@[simp] theorem State.setRegS_ppu (s : State) (v : Byte) : (s.setReg .s v).ppu = s.ppu := rfl
@[simp] theorem State.setRegS_apu (s : State) (v : Byte) : (s.setReg .s v).apu = s.apu := rfl
@[simp] theorem State.setRegS_env (s : State) (v : Byte) : (s.setReg .s v).env = s.env := rfl

@[simp] theorem State.setStatus_a (s : State) (v : Byte) : (s.setStatus v).a = s.a := rfl
@[simp] theorem State.setStatus_x (s : State) (v : Byte) : (s.setStatus v).x = s.x := rfl
@[simp] theorem State.setStatus_y (s : State) (v : Byte) : (s.setStatus v).y = s.y := rfl
@[simp] theorem State.setStatus_s (s : State) (v : Byte) : (s.setStatus v).s = s.s := rfl
@[simp] theorem State.setStatus_p (s : State) (v : Byte) : (s.setStatus v).p = v &&& 0xCF#8 := rfl
@[simp] theorem State.setStatus_pc (s : State) (v : Byte) : (s.setStatus v).pc = s.pc := rfl
@[simp] theorem State.setStatus_remainingCycles (s : State) (v : Byte) : (s.setStatus v).remainingCycles = s.remainingCycles := rfl
@[simp] theorem State.setStatus_ram (s : State) (v : Byte) : (s.setStatus v).ram = s.ram := rfl
@[simp] theorem State.setStatus_ppu (s : State) (v : Byte) : (s.setStatus v).ppu = s.ppu := rfl
@[simp] theorem State.setStatus_apu (s : State) (v : Byte) : (s.setStatus v).apu = s.apu := rfl
@[simp] theorem State.setStatus_env (s : State) (v : Byte) : (s.setStatus v).env = s.env := rfl

@[simp] theorem State.setNZ_a (s : State) (v : Byte) : (s.setNZ v).a = s.a := rfl
@[simp] theorem State.setNZ_x (s : State) (v : Byte) : (s.setNZ v).x = s.x := rfl
@[simp] theorem State.setNZ_y (s : State) (v : Byte) : (s.setNZ v).y = s.y := rfl
@[simp] theorem State.setNZ_s (s : State) (v : Byte) : (s.setNZ v).s = s.s := rfl
@[simp] theorem State.setNZ_p (s : State) (v : Byte) : (s.setNZ v).p = Sys2Proof.Machine.setNZ s.p v := rfl
@[simp] theorem State.setNZ_pc (s : State) (v : Byte) : (s.setNZ v).pc = s.pc := rfl
@[simp] theorem State.setNZ_remainingCycles (s : State) (v : Byte) : (s.setNZ v).remainingCycles = s.remainingCycles := rfl
@[simp] theorem State.setNZ_ram (s : State) (v : Byte) : (s.setNZ v).ram = s.ram := rfl
@[simp] theorem State.setNZ_ppu (s : State) (v : Byte) : (s.setNZ v).ppu = s.ppu := rfl
@[simp] theorem State.setNZ_apu (s : State) (v : Byte) : (s.setNZ v).apu = s.apu := rfl
@[simp] theorem State.setNZ_env (s : State) (v : Byte) : (s.setNZ v).env = s.env := rfl

@[simp] theorem State.advance_a (s : State) (len cost : Nat) : (s.advance len cost).a = s.a := rfl
@[simp] theorem State.advance_x (s : State) (len cost : Nat) : (s.advance len cost).x = s.x := rfl
@[simp] theorem State.advance_y (s : State) (len cost : Nat) : (s.advance len cost).y = s.y := rfl
@[simp] theorem State.advance_s (s : State) (len cost : Nat) : (s.advance len cost).s = s.s := rfl
@[simp] theorem State.advance_p (s : State) (len cost : Nat) : (s.advance len cost).p = s.p := rfl
@[simp] theorem State.advance_pc (s : State) (len cost : Nat) : (s.advance len cost).pc = s.pc + BitVec.ofNat 16 len := rfl
@[simp] theorem State.advance_remainingCycles (s : State) (len cost : Nat) : (s.advance len cost).remainingCycles = cost - 1 := rfl
@[simp] theorem State.advance_ram (s : State) (len cost : Nat) : (s.advance len cost).ram = s.ram := rfl
@[simp] theorem State.advance_ppu (s : State) (len cost : Nat) : (s.advance len cost).ppu = s.ppu := rfl
@[simp] theorem State.advance_apu (s : State) (len cost : Nat) : (s.advance len cost).apu = s.apu := rfl
@[simp] theorem State.advance_env (s : State) (len cost : Nat) : (s.advance len cost).env = s.env := rfl

@[simp] theorem State.jumpTo_a (s : State) (target : U16) (cost : Nat) : (s.jumpTo target cost).a = s.a := rfl
@[simp] theorem State.jumpTo_x (s : State) (target : U16) (cost : Nat) : (s.jumpTo target cost).x = s.x := rfl
@[simp] theorem State.jumpTo_y (s : State) (target : U16) (cost : Nat) : (s.jumpTo target cost).y = s.y := rfl
@[simp] theorem State.jumpTo_s (s : State) (target : U16) (cost : Nat) : (s.jumpTo target cost).s = s.s := rfl
@[simp] theorem State.jumpTo_p (s : State) (target : U16) (cost : Nat) : (s.jumpTo target cost).p = s.p := rfl
@[simp] theorem State.jumpTo_pc (s : State) (target : U16) (cost : Nat) : (s.jumpTo target cost).pc = target := rfl
@[simp] theorem State.jumpTo_remainingCycles (s : State) (target : U16) (cost : Nat) : (s.jumpTo target cost).remainingCycles = cost - 1 := rfl
@[simp] theorem State.jumpTo_ram (s : State) (target : U16) (cost : Nat) : (s.jumpTo target cost).ram = s.ram := rfl
@[simp] theorem State.jumpTo_ppu (s : State) (target : U16) (cost : Nat) : (s.jumpTo target cost).ppu = s.ppu := rfl
@[simp] theorem State.jumpTo_apu (s : State) (target : U16) (cost : Nat) : (s.jumpTo target cost).apu = s.apu := rfl
@[simp] theorem State.jumpTo_env (s : State) (target : U16) (cost : Nat) : (s.jumpTo target cost).env = s.env := rfl

@[simp] theorem State.afterPull_a (s : State) : (s.afterPull).a = s.a := rfl
@[simp] theorem State.afterPull_x (s : State) : (s.afterPull).x = s.x := rfl
@[simp] theorem State.afterPull_y (s : State) : (s.afterPull).y = s.y := rfl
@[simp] theorem State.afterPull_s (s : State) : (s.afterPull).s = s.s + 1 := rfl
@[simp] theorem State.afterPull_p (s : State) : (s.afterPull).p = s.p := rfl
@[simp] theorem State.afterPull_pc (s : State) : (s.afterPull).pc = s.pc := rfl
@[simp] theorem State.afterPull_remainingCycles (s : State) : (s.afterPull).remainingCycles = s.remainingCycles := rfl
@[simp] theorem State.afterPull_ram (s : State) : (s.afterPull).ram = s.ram := rfl
@[simp] theorem State.afterPull_ppu (s : State) : (s.afterPull).ppu = s.ppu := rfl
@[simp] theorem State.afterPull_apu (s : State) : (s.afterPull).apu = s.apu := rfl
@[simp] theorem State.afterPull_env (s : State) : (s.afterPull).env = s.env := rfl

@[simp] theorem State.drain_a (s : State) : (s.drain).a = s.a := rfl
@[simp] theorem State.drain_x (s : State) : (s.drain).x = s.x := rfl
@[simp] theorem State.drain_y (s : State) : (s.drain).y = s.y := rfl
@[simp] theorem State.drain_s (s : State) : (s.drain).s = s.s := rfl
@[simp] theorem State.drain_p (s : State) : (s.drain).p = s.p := rfl
@[simp] theorem State.drain_pc (s : State) : (s.drain).pc = s.pc := rfl
@[simp] theorem State.drain_remainingCycles (s : State) : (s.drain).remainingCycles = s.remainingCycles - 1 := rfl
@[simp] theorem State.drain_ram (s : State) : (s.drain).ram = s.ram := rfl
@[simp] theorem State.drain_ppu (s : State) : (s.drain).ppu = s.ppu := rfl
@[simp] theorem State.drain_apu (s : State) : (s.drain).apu = s.apu := rfl
@[simp] theorem State.drain_env (s : State) : (s.drain).env = s.env := rfl

/-! ## Selected registers -/

@[simp] theorem State.reg_a (s : State) : s.reg .a = s.a := rfl
@[simp] theorem State.reg_x (s : State) : s.reg .x = s.x := rfl
@[simp] theorem State.reg_y (s : State) : s.reg .y = s.y := rfl
@[simp] theorem State.reg_s (s : State) : s.reg .s = s.s := rfl

/-- Reading a register after one is written. -/
theorem State.reg_setReg (s : State) (r q : Reg) (v : Byte) :
    (s.setReg r v).reg q = if q = r then v else s.reg q := by
  cases r <;> cases q <;> rfl

/-! ## The bus write: only the three arrays can change -/

@[simp] theorem State.write_a (s : State) (a : U16) (v : Byte) : (s.write a v).a = s.a := by
  unfold State.write; split <;> rfl
@[simp] theorem State.write_x (s : State) (a : U16) (v : Byte) : (s.write a v).x = s.x := by
  unfold State.write; split <;> rfl
@[simp] theorem State.write_y (s : State) (a : U16) (v : Byte) : (s.write a v).y = s.y := by
  unfold State.write; split <;> rfl
@[simp] theorem State.write_s (s : State) (a : U16) (v : Byte) : (s.write a v).s = s.s := by
  unfold State.write; split <;> rfl
@[simp] theorem State.write_p (s : State) (a : U16) (v : Byte) : (s.write a v).p = s.p := by
  unfold State.write; split <;> rfl
@[simp] theorem State.write_pc (s : State) (a : U16) (v : Byte) : (s.write a v).pc = s.pc := by
  unfold State.write; split <;> rfl
@[simp] theorem State.write_remainingCycles (s : State) (a : U16) (v : Byte) : (s.write a v).remainingCycles = s.remainingCycles := by
  unfold State.write; split <;> rfl
@[simp] theorem State.write_env (s : State) (a : U16) (v : Byte) : (s.write a v).env = s.env := by
  unfold State.write; split <;> rfl

/-- A write is a change of the three arrays and of nothing else. -/
theorem State.write_eq (s : State) (a : U16) (v : Byte) :
    s.write a v = { s with ram := (s.write a v).ram, ppu := (s.write a v).ppu, apu := (s.write a v).apu } := by
  unfold State.write; split <;> rfl

/-! ## The push -/

@[simp] theorem State.push_a (s : State) (v : Byte) : (s.push v).a = s.a := by simp [State.push]
@[simp] theorem State.push_x (s : State) (v : Byte) : (s.push v).x = s.x := by simp [State.push]
@[simp] theorem State.push_y (s : State) (v : Byte) : (s.push v).y = s.y := by simp [State.push]
@[simp] theorem State.push_s (s : State) (v : Byte) : (s.push v).s = s.s - 1 := rfl
@[simp] theorem State.push_p (s : State) (v : Byte) : (s.push v).p = s.p := by simp [State.push]
@[simp] theorem State.push_pc (s : State) (v : Byte) : (s.push v).pc = s.pc := by simp [State.push]
@[simp] theorem State.push_remainingCycles (s : State) (v : Byte) : (s.push v).remainingCycles = s.remainingCycles := by simp [State.push]
@[simp] theorem State.push_ram (s : State) (v : Byte) : (s.push v).ram = (s.write (stackAddress s.s) v).ram := rfl
@[simp] theorem State.push_ppu (s : State) (v : Byte) : (s.push v).ppu = (s.write (stackAddress s.s) v).ppu := rfl
@[simp] theorem State.push_apu (s : State) (v : Byte) : (s.push v).apu = (s.write (stackAddress s.s) v).apu := rfl
@[simp] theorem State.push_env (s : State) (v : Byte) : (s.push v).env = s.env := by simp [State.push]

/-! ## The peripheral agent: only the two windows and its own schedule can change -/

@[simp] theorem State.windowWrite_a (s : State) (w : WindowWrite) : (s.windowWrite w).a = s.a := by
  unfold State.windowWrite; split <;> rfl
@[simp] theorem State.windowWrite_x (s : State) (w : WindowWrite) : (s.windowWrite w).x = s.x := by
  unfold State.windowWrite; split <;> rfl
@[simp] theorem State.windowWrite_y (s : State) (w : WindowWrite) : (s.windowWrite w).y = s.y := by
  unfold State.windowWrite; split <;> rfl
@[simp] theorem State.windowWrite_s (s : State) (w : WindowWrite) : (s.windowWrite w).s = s.s := by
  unfold State.windowWrite; split <;> rfl
@[simp] theorem State.windowWrite_p (s : State) (w : WindowWrite) : (s.windowWrite w).p = s.p := by
  unfold State.windowWrite; split <;> rfl
@[simp] theorem State.windowWrite_pc (s : State) (w : WindowWrite) : (s.windowWrite w).pc = s.pc := by
  unfold State.windowWrite; split <;> rfl
@[simp] theorem State.windowWrite_remainingCycles (s : State) (w : WindowWrite) : (s.windowWrite w).remainingCycles = s.remainingCycles := by
  unfold State.windowWrite; split <;> rfl
@[simp] theorem State.windowWrite_ram (s : State) (w : WindowWrite) : (s.windowWrite w).ram = s.ram := by
  unfold State.windowWrite; split <;> rfl
@[simp] theorem State.windowWrite_env (s : State) (w : WindowWrite) : (s.windowWrite w).env = s.env := by
  unfold State.windowWrite; split <;> rfl

@[simp] theorem State.windowWrites_a (s : State) (ws : PeripheralAction) : (s.windowWrites ws).a = s.a := by
  induction ws generalizing s with
  | nil => rfl
  | cons w ws ih => exact (ih (s.windowWrite w)).trans (State.windowWrite_a s w)
@[simp] theorem State.windowWrites_x (s : State) (ws : PeripheralAction) : (s.windowWrites ws).x = s.x := by
  induction ws generalizing s with
  | nil => rfl
  | cons w ws ih => exact (ih (s.windowWrite w)).trans (State.windowWrite_x s w)
@[simp] theorem State.windowWrites_y (s : State) (ws : PeripheralAction) : (s.windowWrites ws).y = s.y := by
  induction ws generalizing s with
  | nil => rfl
  | cons w ws ih => exact (ih (s.windowWrite w)).trans (State.windowWrite_y s w)
@[simp] theorem State.windowWrites_s (s : State) (ws : PeripheralAction) : (s.windowWrites ws).s = s.s := by
  induction ws generalizing s with
  | nil => rfl
  | cons w ws ih => exact (ih (s.windowWrite w)).trans (State.windowWrite_s s w)
@[simp] theorem State.windowWrites_p (s : State) (ws : PeripheralAction) : (s.windowWrites ws).p = s.p := by
  induction ws generalizing s with
  | nil => rfl
  | cons w ws ih => exact (ih (s.windowWrite w)).trans (State.windowWrite_p s w)
@[simp] theorem State.windowWrites_pc (s : State) (ws : PeripheralAction) : (s.windowWrites ws).pc = s.pc := by
  induction ws generalizing s with
  | nil => rfl
  | cons w ws ih => exact (ih (s.windowWrite w)).trans (State.windowWrite_pc s w)
@[simp] theorem State.windowWrites_remainingCycles (s : State) (ws : PeripheralAction) : (s.windowWrites ws).remainingCycles = s.remainingCycles := by
  induction ws generalizing s with
  | nil => rfl
  | cons w ws ih => exact (ih (s.windowWrite w)).trans (State.windowWrite_remainingCycles s w)
@[simp] theorem State.windowWrites_ram (s : State) (ws : PeripheralAction) : (s.windowWrites ws).ram = s.ram := by
  induction ws generalizing s with
  | nil => rfl
  | cons w ws ih => exact (ih (s.windowWrite w)).trans (State.windowWrite_ram s w)
@[simp] theorem State.windowWrites_env (s : State) (ws : PeripheralAction) : (s.windowWrites ws).env = s.env := by
  induction ws generalizing s with
  | nil => rfl
  | cons w ws ih => exact (ih (s.windowWrite w)).trans (State.windowWrite_env s w)

@[simp] theorem State.gap_a (s : State) : s.gap.a = s.a := by
  unfold State.gap; split <;> simp
@[simp] theorem State.gap_x (s : State) : s.gap.x = s.x := by
  unfold State.gap; split <;> simp
@[simp] theorem State.gap_y (s : State) : s.gap.y = s.y := by
  unfold State.gap; split <;> simp
@[simp] theorem State.gap_s (s : State) : s.gap.s = s.s := by
  unfold State.gap; split <;> simp
@[simp] theorem State.gap_p (s : State) : s.gap.p = s.p := by
  unfold State.gap; split <;> simp
@[simp] theorem State.gap_pc (s : State) : s.gap.pc = s.pc := by
  unfold State.gap; split <;> simp
@[simp] theorem State.gap_remainingCycles (s : State) : s.gap.remainingCycles = s.remainingCycles := by
  unfold State.gap; split <;> simp
@[simp] theorem State.gap_ram (s : State) : s.gap.ram = s.ram := by
  unfold State.gap; split <;> simp

/-- With no action coming, the gap changes nothing. -/
theorem State.gap_of_env_nil (s : State) (h : s.env = []) : s.gap = s := by
  simp [State.gap, h]

end Sys2Proof.Machine
end

