-- ==== Sys2Proof/Laws/Bus.lean ====
section
/-! SUPPORT. The bus: what a read gives after a write, and that a read depends on the three arrays alone. -/

namespace Sys2Proof.Machine

/-- A read looks at the three arrays only. -/
theorem State.read_congr {s t : State} (hr : s.ram = t.ram) (hp : s.ppu = t.ppu) (ha : s.apu = t.apu) (a : U16) :
    s.read a = t.read a := by
  simp only [State.read, hr, hp, ha]

/-- A read below the windows looks at RAM only. -/
theorem State.read_congr_ram {s t : State} (hr : s.ram = t.ram) {a : U16} (h : a.toNat < 0x2000) :
    s.read a = t.read a := by
  simp [State.read, route, h, hr]

/-- A write to open bus is discarded (R55). -/
theorem State.write_openBus {s : State} {a : U16} {v : Byte} (h : route a = .openBus) : s.write a v = s := by
  simp [State.write, h]

/-- A read through any address of the written element gives the byte written (R58). -/
theorem State.read_write_same {s : State} {a b : U16} {v : Byte} (h : route a = route b) (ho : route a ≠ .openBus) :
    (s.write a v).read b = v := by
  rw [State.read, State.write, ← h]
  split <;> simp_all [Memory.read_write]

/-- A read through any other address gives what it gave before. -/
theorem State.read_write_other {s : State} {a b : U16} {v : Byte} (h : route a ≠ route b) :
    (s.write a v).read b = s.read b := by
  have h' := h.symm
  cases ha : route a <;> cases hb : route b <;>
    simp_all [State.read, State.write, Memory.read_write, Fin.ext_iff]

/-- The stack page is RAM (R26, R52). -/
theorem stackAddress_toNat (sp : Byte) : (stackAddress sp).toNat = 0x0100 + sp.toNat := by
  have := sp.isLt
  simp [stackAddress, Config.stackBase, BitVec.toNat_add]
  omega

theorem route_of_lt {a : U16} (h : a.toNat < 0x2000) :
    route a = .ram ⟨a.toNat % 0x0800, Nat.mod_lt _ (by decide)⟩ := by
  simp [route, h]

/-- Distinct stack pointer values name distinct elements. -/
theorem route_stackAddress_inj {a b : Byte} (h : route (stackAddress a) = route (stackAddress b)) : a = b := by
  have ha := stackAddress_toNat a
  have hb := stackAddress_toNat b
  have la := a.isLt
  have lb := b.isLt
  rw [route_of_lt (by omega), route_of_lt (by omega)] at h
  simp only [Route.ram.injEq, Fin.mk.injEq] at h
  apply BitVec.eq_of_toNat_eq
  omega

theorem route_stackAddress_ne_openBus (sp : Byte) : route (stackAddress sp) ≠ .openBus := by
  have h := stackAddress_toNat sp
  have l := sp.isLt
  rw [route_of_lt (by omega)]
  simp

/-- Every address below the open bus has storage. -/
theorem route_ne_openBus {a : U16} (h : a.toNat < 0x4018) : route a ≠ .openBus := by
  have h24 : ¬ a.toNat < 0x4000 → a.toNat - 0x4000 < 24 := fun _ => by omega
  simp only [route]
  split
  · simp
  · split
    · simp
    · rename_i h4
      simp [h24 h4]

/-- A write is the same change of the arrays whatever A holds, … -/
theorem State.write_withA (s : State) (r : Byte) (a : U16) (v : Byte) :
    ({ s with a := r } : State).write a v = { s.write a v with a := r } := by
  unfold State.write; split <;> rfl

/-- … whatever S holds, … -/
theorem State.write_withS (s : State) (r : Byte) (a : U16) (v : Byte) :
    ({ s with s := r } : State).write a v = { s.write a v with s := r } := by
  unfold State.write; split <;> rfl

/-- … and whatever P holds. -/
theorem State.write_withP (s : State) (r : Byte) (a : U16) (v : Byte) :
    ({ s with p := r } : State).write a v = { s.write a v with p := r } := by
  unfold State.write; split <;> rfl

/-- A window element after one write of the peripheral agent. -/
theorem State.read_windowWrite_ppu (s : State) (w : WindowWrite) (i : Fin 8) :
    Memory.read (s.windowWrite w).ppu i.val = if w.elem = .ppu i then w.value else Memory.read s.ppu i.val := by
  unfold State.windowWrite
  split
  · rename_i j hj
    rw [Memory.read_write, hj]
    simp only [WindowElem.ppu.injEq, Fin.ext_iff, eq_comm]
  · rename_i j hj
    simp [hj]

@[inherit_doc State.read_windowWrite_ppu]
theorem State.read_windowWrite_apu (s : State) (w : WindowWrite) (i : Fin 24) :
    Memory.read (s.windowWrite w).apu i.val = if w.elem = .apu i then w.value else Memory.read s.apu i.val := by
  unfold State.windowWrite
  split
  · rename_i j hj
    simp [hj]
  · rename_i j hj
    rw [Memory.read_write, hj]
    simp only [WindowElem.apu.injEq, Fin.ext_iff, eq_comm]

end Sys2Proof.Machine
end

