-- ==== Sys2Proof/Laws/Flags.lean ====
section
/-! SUPPORT. The flag register bit by bit. -/

namespace Sys2Proof.Machine

/-- Assigning a flag sets its bit and preserves every other (R30). -/
@[simp] theorem getLsbD_setFlag (p : Byte) (f : Flag) (b : Bool) (k : Nat) :
    (setFlag p f b).getLsbD k = if k = f.bit then b else p.getLsbD k := by
  by_cases hk : k < 8
  · have hall : ∀ j : Fin 8, (setFlag p f b).getLsbD j.val = if j.val = f.bit then b else p.getLsbD j.val := by
      intro j
      cases b <;> cases f <;> fin_cases j <;> simp [setFlag, Flag.bit]
    exact hall ⟨k, hk⟩
  · have hf : k ≠ f.bit := by cases f <;> simp only [Flag.bit] <;> omega
    simp [hf, BitVec.getLsbD_of_ge _ _ (Nat.le_of_not_lt hk)]

/-- The same, read as an element. -/
@[simp] theorem getElem_setFlag (p : Byte) (f : Flag) (b : Bool) (k : Nat) (hk : k < 8) :
    (setFlag p f b)[k] = if k = f.bit then b else p[k] := by
  rw [← BitVec.getLsbD_eq_getElem, getLsbD_setFlag]
  split
  · rfl
  · exact BitVec.getLsbD_eq_getElem hk

/-- Distinct flags have distinct bits (R27). -/
@[simp] theorem Flag.bit_inj {f g : Flag} : f.bit = g.bit ↔ f = g := by
  cases f <;> cases g <;> simp [Flag.bit]

/-- A flag read after one was assigned. -/
theorem flag_setFlag (p : Byte) (f g : Flag) (b : Bool) :
    (setFlag p f b).getLsbD g.bit = if g = f then b else p.getLsbD g.bit := by
  simp

/-- No flag assignment reaches the hard-wired bits 5 and 4 (R32). -/
@[simp] theorem setFlag_and_reserved (p : Byte) (f : Flag) (b : Bool) : setFlag p f b &&& 0x30#8 = p &&& 0x30#8 := by
  apply BitVec.eq_of_getLsbD_eq
  intro k hk
  rw [BitVec.getLsbD_and, BitVec.getLsbD_and, getLsbD_setFlag]
  split
  · subst k; cases f <;> simp [Flag.bit]
  · rfl

@[simp] theorem setNZ_and_reserved (p v : Byte) : setNZ p v &&& 0x30#8 = p &&& 0x30#8 := by
  simp [setNZ, setZero, setNegative]

@[simp] theorem addFlags_and_reserved (p a n : Byte) (c : Bool) : addFlags p a n c &&& 0x30#8 = p &&& 0x30#8 := by
  simp [addFlags, setOverflow, setCarry]

/-- A status byte written whole has bits 5 and 4 clear (R32). -/
@[simp] theorem State.setStatus_and_reserved (s : State) (v : Byte) : (s.setStatus v).p &&& 0x30#8 = 0 := by
  rw [State.setStatus, BitVec.and_assoc]
  simp

/-- `SetNZ` bit by bit (R28, R29). -/
@[simp] theorem getLsbD_setNZ (p v : Byte) (k : Nat) :
    (setNZ p v).getLsbD k = if k = 1 then decide (v = 0) else if k = 7 then decide (0x7F < v.toNat) else p.getLsbD k := by
  simp only [setNZ, setZero, setNegative, getLsbD_setFlag]
  rfl

/-- The same, read as an element. -/
@[simp] theorem getElem_setNZ (p v : Byte) (k : Nat) (hk : k < 8) :
    (setNZ p v)[k] = if k = 1 then decide (v = 0) else if k = 7 then decide (0x7F < v.toNat) else p[k] := by
  rw [← BitVec.getLsbD_eq_getElem, getLsbD_setNZ, BitVec.getLsbD_eq_getElem hk]

/-- A second `SetNZ` replaces the first. -/
@[simp] theorem setNZ_setNZ (p u v : Byte) : setNZ (setNZ p u) v = setNZ p v := by
  apply BitVec.eq_of_getLsbD_eq
  intro k _
  rw [getLsbD_setNZ, getLsbD_setNZ, getLsbD_setNZ]
  split
  · rfl
  · split <;> rfl

/-- The flags of an addition bit by bit. -/
theorem getLsbD_addFlags (p a n : Byte) (c : Bool) (k : Nat) :
    (addFlags p a n c).getLsbD k =
      if k = 1 then decide (addResult a n c = 0)
      else if k = 7 then decide (0x7F < (addResult a n c).toNat)
      else if k = 6 then addOverflow a n c
      else if k = 0 then addCarry a n c
      else p.getLsbD k := by
  simp only [addFlags, setOverflow, setCarry, getLsbD_setNZ, getLsbD_setFlag]
  rfl

/-- The same, read as an element. -/
theorem getElem_addFlags (p a n : Byte) (c : Bool) (k : Nat) (hk : k < 8) :
    (addFlags p a n c)[k] =
      if k = 1 then decide (addResult a n c = 0)
      else if k = 7 then decide (0x7F < (addResult a n c).toNat)
      else if k = 6 then addOverflow a n c
      else if k = 0 then addCarry a n c
      else p[k] := by
  rw [← BitVec.getLsbD_eq_getElem, getLsbD_addFlags, BitVec.getLsbD_eq_getElem hk]

theorem addResult_toNat (a n : Byte) (c : Bool) : (addResult a n c).toNat = (a.toNat + n.toNat + c.toNat) % 256 := by
  simp [addResult, addSum]

theorem addCarry_iff (a n : Byte) (c : Bool) : addCarry a n c = true ↔ 256 ≤ a.toNat + n.toNat + c.toNat := by
  rw [addCarry, decide_eq_true_iff, addSum]
  omega

/-- The test of bit 7 by a mask. -/
theorem and_0x80_ne_zero : ∀ x : Byte, ((x &&& 0x80#8) != 0) = x.getLsbD 7 := by decide

theorem getLsbD_seven (x : Byte) : x.getLsbD 7 = decide (0x7F < x.toNat) := by
  revert x; decide

end Sys2Proof.Machine
end

