-- ==== Sys2Proof/Laws/Meanings.lean ====
section
/-! SUPPORT. What each shared operation of the meanings answers, whole: one equation each, every field not named unchanged. -/

namespace Sys2Proof.Machine

theorem load_a_eq (o : Operand) (base : Nat) (s : State) :
    load .a o base s = { s with
      a := operandValue o s, p := setNZ s.p (operandValue o s), pc := s.pc + BitVec.ofNat 16 o.length,
      remainingCycles := base + pageCross o s - 1 } := rfl

theorem load_x_eq (o : Operand) (base : Nat) (s : State) :
    load .x o base s = { s with
      x := operandValue o s, p := setNZ s.p (operandValue o s), pc := s.pc + BitVec.ofNat 16 o.length,
      remainingCycles := base + pageCross o s - 1 } := rfl

theorem load_y_eq (o : Operand) (base : Nat) (s : State) :
    load .y o base s = { s with
      y := operandValue o s, p := setNZ s.p (operandValue o s), pc := s.pc + BitVec.ofNat 16 o.length,
      remainingCycles := base + pageCross o s - 1 } := rfl

theorem store_eq (r : Reg) (o : Operand) (base : Nat) (s : State) :
    store r o base s = { s.write (resolve o s).ea (s.reg r) with
      pc := s.pc + BitVec.ofNat 16 o.length, remainingCycles := base - 1 } := by
  simp [store, State.advance]

theorem transfer_eq (src dst : Reg) (s : State) :
    transfer src dst s = { s.setReg dst (s.reg src) with
      p := setNZ s.p (s.reg src), pc := s.pc + 1, remainingCycles := 1 } := by
  cases dst <;> rfl

theorem transferToStack_eq (src : Reg) (s : State) :
    transferToStack src s = { s with s := s.reg src, pc := s.pc + 1, remainingCycles := 1 } := rfl

theorem modifyMemory_eq (f : Byte → Byte) (o : Operand) (base : Nat) (s : State) :
    modifyMemory f o base s = { s.write (resolve o s).ea (f (s.read (resolve o s).ea)) with
      p := setNZ s.p (f (s.read (resolve o s).ea)), pc := s.pc + BitVec.ofNat 16 o.length, remainingCycles := base - 1 } := by
  simp [modifyMemory, State.advance, State.setNZ]

theorem modifyRegister_eq (f : Byte → Byte) (r : Reg) (s : State) :
    modifyRegister f r s = { s.setReg r (f (s.reg r)) with
      p := setNZ s.p (f (s.reg r)), pc := s.pc + 1, remainingCycles := 1 } := by
  cases r <;> rfl

theorem jump_eq (o : Operand) (base : Nat) (s : State) :
    jump o base s = { s with pc := (resolve o s).ea, remainingCycles := base - 1 } := rfl

theorem branch_taken (d : Byte) (s : State) :
    branch true d s = { s with
      pc := (resolve (.relative d) s).ea, remainingCycles := 3 + pageCross (.relative d) s - 1 } := rfl

theorem branch_not_taken (d : Byte) (s : State) :
    branch false d s = { s with pc := s.pc + 2, remainingCycles := 1 } := rfl

theorem addToA_eq (n : Byte) (o : Operand) (base : Nat) (s : State) :
    addToA n o base s = { s with
      a := addResult s.a n (s.flag .c), p := addFlags s.p s.a n (s.flag .c),
      pc := s.pc + BitVec.ofNat 16 o.length, remainingCycles := base + pageCross o s - 1 } := rfl

theorem callSubroutine_eq (target : U16) (base : Nat) (s : State) :
    callSubroutine target base s =
      { (s.write (stackAddress s.s) (hiByte (s.pc + 2))).write (stackAddress (s.s - 1)) (loByte (s.pc + 2)) with
        s := s.s - 1 - 1, pc := target, remainingCycles := base - 1 } := by
  simp only [callSubroutine, State.push, State.jumpTo, State.write]
  split <;> split <;> rfl

theorem returnFromSubroutine_eq (base : Nat) (s : State) :
    returnFromSubroutine base s = { s with
      s := s.s + 1 + 1, pc := word (s.read (stackAddress (s.s + 1 + 1))) (s.read (stackAddress (s.s + 1))) + 1,
      remainingCycles := base - 1 } := rfl

theorem returnFromInterrupt_eq (base : Nat) (s : State) :
    returnFromInterrupt base s = { s with
      s := s.s + 1 + 1 + 1, p := s.read (stackAddress (s.s + 1)) &&& 0xCF#8,
      pc := word (s.read (stackAddress (s.s + 1 + 1 + 1))) (s.read (stackAddress (s.s + 1 + 1))),
      remainingCycles := base - 1 } := rfl

/-- The byte just pushed is the one a pull returns, and S comes back (R191). -/
theorem State.pulled_push (s : State) (v : Byte) : (s.push v).pulled = v := by
  have hs : s.s - 1 + 1 = s.s := by simp
  show (s.write (stackAddress s.s) v).read (stackAddress (s.s - 1 + 1)) = v
  rw [hs]
  exact State.read_write_same rfl (route_stackAddress_ne_openBus s.s)

end Sys2Proof.Machine
end

