-- ==== Sys2Proof/Laws/Effects.lean ====
section
/-! SUPPORT. Said once: every instruction answers a next state, and it is its mnemonic's operation on its operand. A claim about all instructions is a case
analysis of `Effect` (one case a mnemonic), not of the rows. -/

namespace Sys2Proof.Machine

/-- What the instruction of a mnemonic with an operand (none for an unmapped byte) leaves of the state `s`; `base` stands for the row's base cycles where
they differ among a mnemonic's modes. -/
inductive Effect (base : Nat) (s : State) : Mnemonic → Option Operand → State → Prop where
  | lda (o : Operand) : Effect base s .lda (some o) (load .a o base s)
  | ldx (o : Operand) : Effect base s .ldx (some o) (load .x o base s)
  | ldy (o : Operand) : Effect base s .ldy (some o) (load .y o base s)
  | sta (o : Operand) : Effect base s .sta (some o) (store .a o base s)
  | stx (o : Operand) : Effect base s .stx (some o) (store .x o base s)
  | sty (o : Operand) : Effect base s .sty (some o) (store .y o base s)
  | tax : Effect base s .tax (some .implied) (transfer .a .x s)
  | tay : Effect base s .tay (some .implied) (transfer .a .y s)
  | tsx : Effect base s .tsx (some .implied) (transfer .s .x s)
  | txa : Effect base s .txa (some .implied) (transfer .x .a s)
  | txs : Effect base s .txs (some .implied) (transferToStack .x s)
  | tya : Effect base s .tya (some .implied) (transfer .y .a s)
  | inc (o : Operand) : Effect base s .inc (some o) (modifyMemory inc8 o base s)
  | dec (o : Operand) : Effect base s .dec (some o) (modifyMemory dec8 o base s)
  | inx : Effect base s .inx (some .implied) (modifyRegister inc8 .x s)
  | iny : Effect base s .iny (some .implied) (modifyRegister inc8 .y s)
  | dex : Effect base s .dex (some .implied) (modifyRegister dec8 .x s)
  | dey : Effect base s .dey (some .implied) (modifyRegister dec8 .y s)
  | jmp (o : Operand) : Effect base s .jmp (some o) (jump o base s)
  | bcc (d : Byte) : Effect base s .bcc (some (.relative d)) (branch (!s.flag .c) d s)
  | bcs (d : Byte) : Effect base s .bcs (some (.relative d)) (branch (s.flag .c) d s)
  | beq (d : Byte) : Effect base s .beq (some (.relative d)) (branch (s.flag .z) d s)
  | bne (d : Byte) : Effect base s .bne (some (.relative d)) (branch (!s.flag .z) d s)
  | bmi (d : Byte) : Effect base s .bmi (some (.relative d)) (branch (s.flag .n) d s)
  | bpl (d : Byte) : Effect base s .bpl (some (.relative d)) (branch (!s.flag .n) d s)
  | bvc (d : Byte) : Effect base s .bvc (some (.relative d)) (branch (!s.flag .v) d s)
  | bvs (d : Byte) : Effect base s .bvs (some (.relative d)) (branch (s.flag .v) d s)
  | adc (o : Operand) : Effect base s .adc (some o) (addToA (operandValue o s) o base s)
  | sbc (o : Operand) : Effect base s .sbc (some o) (addToA (operandValue o s ^^^ 0xFF#8) o base s)
  | pha : Effect base s .pha (some .implied) ((s.push s.a).advance 1 3)
  | php : Effect base s .php (some .implied) ((s.push (s.p ||| 0x30#8)).advance 1 3)
  | pla : Effect base s .pla (some .implied) (((s.afterPull.setReg .a s.pulled).setNZ s.pulled).advance 1 4)
  | plp : Effect base s .plp (some .implied) ((s.afterPull.setStatus s.pulled).advance 1 4)
  | jsr (w : U16) : Effect base s .jsr (some (.absolute w)) (callSubroutine w 6 s)
  | rts : Effect base s .rts (some .implied) (returnFromSubroutine 6 s)
  | rti : Effect base s .rti (some .implied) (returnFromInterrupt 6 s)
  | unmapped : Effect base s .unmapped none s

/-- Every instruction answers a next state in every state, with its mnemonic's effect; the base cycles do not depend on the state. -/
theorem exec_effect (i : Instr) :
    ∃ base, ∀ s, ∃ t, exec i s = .next t ∧ Effect base s i.mnemonic i.operand t := by
  cases i
  case unmapped => exact ⟨0, fun s => ⟨_, rfl, .unmapped⟩⟩
  all_goals first
    | exact ⟨_, fun s => ⟨_, rfl, .lda _⟩⟩
    | exact ⟨_, fun s => ⟨_, rfl, .ldx _⟩⟩
    | exact ⟨_, fun s => ⟨_, rfl, .ldy _⟩⟩
    | exact ⟨_, fun s => ⟨_, rfl, .sta _⟩⟩
    | exact ⟨_, fun s => ⟨_, rfl, .stx _⟩⟩
    | exact ⟨_, fun s => ⟨_, rfl, .sty _⟩⟩
    | exact ⟨_, fun s => ⟨_, rfl, .inc _⟩⟩
    | exact ⟨_, fun s => ⟨_, rfl, .dec _⟩⟩
    | exact ⟨_, fun s => ⟨_, rfl, .jmp _⟩⟩
    | exact ⟨_, fun s => ⟨_, rfl, .adc _⟩⟩
    | exact ⟨_, fun s => ⟨_, rfl, .sbc _⟩⟩
    | exact ⟨0, fun s => ⟨_, rfl, .bcc _⟩⟩
    | exact ⟨0, fun s => ⟨_, rfl, .bcs _⟩⟩
    | exact ⟨0, fun s => ⟨_, rfl, .beq _⟩⟩
    | exact ⟨0, fun s => ⟨_, rfl, .bne _⟩⟩
    | exact ⟨0, fun s => ⟨_, rfl, .bmi _⟩⟩
    | exact ⟨0, fun s => ⟨_, rfl, .bpl _⟩⟩
    | exact ⟨0, fun s => ⟨_, rfl, .bvc _⟩⟩
    | exact ⟨0, fun s => ⟨_, rfl, .bvs _⟩⟩
    | exact ⟨0, fun s => ⟨_, rfl, .jsr _⟩⟩
    | exact ⟨0, fun s => ⟨_, rfl, .tax⟩⟩
    | exact ⟨0, fun s => ⟨_, rfl, .tay⟩⟩
    | exact ⟨0, fun s => ⟨_, rfl, .tsx⟩⟩
    | exact ⟨0, fun s => ⟨_, rfl, .txa⟩⟩
    | exact ⟨0, fun s => ⟨_, rfl, .txs⟩⟩
    | exact ⟨0, fun s => ⟨_, rfl, .tya⟩⟩
    | exact ⟨0, fun s => ⟨_, rfl, .inx⟩⟩
    | exact ⟨0, fun s => ⟨_, rfl, .iny⟩⟩
    | exact ⟨0, fun s => ⟨_, rfl, .dex⟩⟩
    | exact ⟨0, fun s => ⟨_, rfl, .dey⟩⟩
    | exact ⟨0, fun s => ⟨_, rfl, .pha⟩⟩
    | exact ⟨0, fun s => ⟨_, rfl, .php⟩⟩
    | exact ⟨0, fun s => ⟨_, rfl, .pla⟩⟩
    | exact ⟨0, fun s => ⟨_, rfl, .plp⟩⟩
    | exact ⟨0, fun s => ⟨_, rfl, .rts⟩⟩
    | exact ⟨0, fun s => ⟨_, rfl, .rti⟩⟩

end Sys2Proof.Machine
end

