-- ==== Sys2Proof/Laws/Encoding.lean ====
section
/-! SUPPORT. The pieces of the encoding: bytes and 16-bit values, and the decoder on one, two and three bytes. -/

namespace Sys2Proof

@[simp] theorem word_hiByte_loByte (w : U16) : word (hiByte w) (loByte w) = w := by
  apply BitVec.eq_of_getLsbD_eq
  intro i hi
  simp only [word, hiByte, loByte, BitVec.getLsbD_append, BitVec.getLsbD_setWidth, BitVec.getLsbD_extractLsb']
  by_cases h : i < 8
  · simp [h]
  · have hd : i - 8 < 8 := by omega
    have he : 8 + (i - 8) = i := by omega
    simp [h, hd, he]

@[simp] theorem hiByte_word (h l : Byte) : hiByte (word h l) = h := by
  apply BitVec.eq_of_getLsbD_eq
  intro i hi
  simp only [word, hiByte, BitVec.getLsbD_extractLsb']
  rw [BitVec.getLsbD_append]
  simp [hi, show ¬ 8 + i < 8 by omega]

@[simp] theorem loByte_word (h l : Byte) : loByte (word h l) = l := by
  apply BitVec.eq_of_getLsbD_eq
  intro i hi
  simp only [word, loByte, BitVec.getLsbD_setWidth]
  rw [BitVec.getLsbD_append]
  simp [hi]

/-- A row without operand bytes. -/
theorem decode_of_opcode {op : Byte} {i : Instr} {rest : List Byte} (h : ∀ b1 b2, decodeOp op b1 b2 = i)
    (hl : i.length ≤ 1) : decode (op :: rest) = .ok i := by
  simp only [decode, h]
  exact if_neg (by omega)

/-- A row with one operand byte. -/
theorem decode_of_byte {op b : Byte} {i : Instr} {rest : List Byte} (h : ∀ b2, decodeOp op b b2 = i)
    (hl : i.length ≤ 2) : decode (op :: b :: rest) = .ok i := by
  simp only [decode, List.getD_cons_zero, h]
  exact if_neg (by simp only [List.length_cons]; omega)

/-- A row with a 16-bit operand, its high byte first (R84). -/
theorem decode_of_word {op : Byte} {f : U16 → Instr} {w : U16} {rest : List Byte}
    (h : ∀ b1 b2, decodeOp op b1 b2 = f (word b1 b2)) (hl : (f w).length ≤ 3) :
    decode (op :: hiByte w :: loByte w :: rest) = .ok (f w) := by
  simp only [decode, List.getD_cons_zero, List.getD_cons_succ, h, word_hiByte_loByte]
  exact if_neg (by simp only [List.length_cons]; omega)

/-- No instruction is longer than three bytes (R80). -/
theorem Instr.length_le_three (i : Instr) : i.length ≤ 3 := by
  cases i <;> simp [Instr.length, Instr.operand, Operand.length, Operand.mode, Mode.length]

/-- The decoder on three bytes refuses nothing (R89). -/
theorem decode_three (op b1 b2 : Byte) (rest : List Byte) : decode (op :: b1 :: b2 :: rest) = .ok (decodeOp op b1 b2) := by
  simp only [decode, List.getD_cons_zero, List.getD_cons_succ]
  rw [if_neg]
  have := (decodeOp op b1 b2).length_le_three
  simp only [List.length_cons]
  omega

/-- The decoder on a table word (R86). -/
theorem decodeTableWord_eq (nbits w : Nat) :
    decodeTableWord nbits w =
      some (decodeOp (tableByte (w % 2 ^ nbits) 0) (tableByte (w % 2 ^ nbits) 1) (tableByte (w % 2 ^ nbits) 2)) := by
  simp only [decodeTableWord, decode_three]
  rfl

end Sys2Proof
end

