-- ==== Sys2Proof/Laws/Invariant.lean ====
section
/-! SUPPORT. The canonical form of the arrays is kept by the bus write, by the stack push and by the peripheral agent's gap; the reset state has it. -/

namespace Sys2Proof.Machine

theorem State.memoryWf_iff (s : State) :
    s.memoryWf = true ↔ Memory.wf 2048 s.ram = true ∧ Memory.wf 8 s.ppu = true ∧ Memory.wf 24 s.apu = true := by
  simp [State.memoryWf, and_assoc]

/-- The canonical form depends on the arrays alone. -/
theorem State.memoryWf_congr {s t : State} (hr : s.ram = t.ram) (hp : s.ppu = t.ppu) (ha : s.apu = t.apu) :
    s.memoryWf = t.memoryWf := by
  simp only [State.memoryWf, hr, hp, ha]

theorem State.memoryWf_write {s : State} (a : U16) (v : Byte) (h : s.memoryWf = true) :
    (s.write a v).memoryWf = true := by
  rw [State.memoryWf_iff] at h ⊢
  unfold State.write
  split
  · exact ⟨Memory.wf_write v h.1 (Fin.isLt _), h.2⟩
  · exact ⟨h.1, Memory.wf_write v h.2.1 (Fin.isLt _), h.2.2⟩
  · exact ⟨h.1, h.2.1, Memory.wf_write v h.2.2 (Fin.isLt _)⟩
  · exact h

theorem State.memoryWf_push {s : State} (v : Byte) (h : s.memoryWf = true) : (s.push v).memoryWf = true :=
  State.memoryWf_write (stackAddress s.s) v h

theorem State.memoryWf_windowWrite {s : State} (w : WindowWrite) (h : s.memoryWf = true) :
    (s.windowWrite w).memoryWf = true := by
  rw [State.memoryWf_iff] at h ⊢
  unfold State.windowWrite
  split
  · exact ⟨h.1, Memory.wf_write w.value h.2.1 (Fin.isLt _), h.2.2⟩
  · exact ⟨h.1, h.2.1, Memory.wf_write w.value h.2.2 (Fin.isLt _)⟩

theorem State.memoryWf_windowWrites {s : State} (ws : PeripheralAction) (h : s.memoryWf = true) :
    (s.windowWrites ws).memoryWf = true := by
  induction ws generalizing s with
  | nil => exact h
  | cons w ws ih => exact ih (State.memoryWf_windowWrite w h)

theorem State.memoryWf_gap {s : State} (h : s.memoryWf = true) : s.gap.memoryWf = true := by
  unfold State.gap
  split
  · exact h
  · exact State.memoryWf_windowWrites _ h

theorem reset_memoryWf : State.reset.memoryWf = true := rfl

end Sys2Proof.Machine
end

