-- ==== Sys2Proof/Laws/Operands.lean ====
section
/-! SUPPORT. Pages, zero-page addresses and branch targets as numbers, and that the resolver reads neither A, S nor P. -/

namespace Sys2Proof.Machine

/-- The page of an address is its high byte. -/
theorem and_page (w : U16) : w &&& 0xFF00#16 = BitVec.ofNat 16 (w.toNat / 256 * 256) := by
  have hw := w.isLt
  have key : w &&& 0xFF00#16 = (w >>> 8) <<< 8 := by
    apply BitVec.eq_of_getLsbD_eq
    intro i hi
    have hc : (0xFF00#16).getLsbD i = decide (8 ≤ i) := by
      have all : ∀ j : Fin 16, (0xFF00#16).getLsbD j.val = decide (8 ≤ j.val) := by decide
      exact all ⟨i, hi⟩
    rw [BitVec.getLsbD_and, hc, BitVec.getLsbD_shiftLeft, BitVec.getLsbD_ushiftRight]
    by_cases h : 8 ≤ i
    · simp [h, hi, show ¬ i < 8 by omega, show 8 + (i - 8) = i by omega]
    · simp [h, show i < 8 by omega]
  rw [key]
  apply BitVec.eq_of_toNat_eq
  simp [Nat.shiftLeft_eq, Nat.shiftRight_eq_div_pow]

theorem and_low (w : U16) : w &&& 0x00FF#16 = BitVec.ofNat 16 (w.toNat % 256) := by
  apply BitVec.eq_of_toNat_eq
  have hw := w.isLt
  have h := Nat.and_two_pow_sub_one_eq_mod w.toNat 8
  rw [BitVec.toNat_and]
  simp only [BitVec.toNat_ofNat]
  simp at h ⊢
  omega

/-- Same page, as numbers. -/
theorem and_page_eq_iff (a b : U16) : a &&& 0xFF00#16 = b &&& 0xFF00#16 ↔ a.toNat / 256 = b.toNat / 256 := by
  have ha := a.isLt
  have hb := b.isLt
  rw [and_page, and_page, ← BitVec.toNat_inj]
  simp only [BitVec.toNat_ofNat]
  omega

theorem pagesDiffer_iff (a b : U16) : pagesDiffer a b = true ↔ a.toNat / 256 ≠ b.toNat / 256 := by
  rw [pagesDiffer, bne_iff_ne]
  exact not_congr (and_page_eq_iff a b)

@[simp] theorem zeroPageAddress_toNat (z : Byte) : (zeroPageAddress z).toNat = z.toNat := by
  have h := z.isLt
  simp [zeroPageAddress]
  omega

/-- The displacement of a branch is signed. -/
theorem signExtend_toNat (d : Byte) :
    (d.signExtend 16).toNat = if d.toNat < 128 then d.toNat else d.toNat + 65280 := by
  have h := d.isLt
  rw [BitVec.toNat_signExtend]
  simp [BitVec.msb_eq_decide]
  split <;> split <;> omega

@[simp] theorem resolve_withA (o : Operand) (s : State) (r : Byte) : resolve o { s with a := r } = resolve o s := by
  cases o <;> rfl

@[simp] theorem resolve_withS (o : Operand) (s : State) (r : Byte) : resolve o { s with s := r } = resolve o s := by
  cases o <;> rfl

@[simp] theorem resolve_withP (o : Operand) (s : State) (r : Byte) : resolve o { s with p := r } = resolve o s := by
  cases o <;> rfl

@[simp] theorem operandValue_withA (o : Operand) (s : State) (r : Byte) :
    operandValue o { s with a := r } = operandValue o s := by
  cases o <;> rfl

@[simp] theorem operandValue_withP (o : Operand) (s : State) (r : Byte) :
    operandValue o { s with p := r } = operandValue o s := by
  cases o <;> rfl

end Sys2Proof.Machine
end

