-- ==== Sys2Proof/Laws/PerInstr.lean ====
section
/-! SUPPORT. Statements about every instruction as syntax, one lemma per constructor of `Instr`. -/

/-- An instruction is encoded in as many bytes as its mode gives it (30_encoding.md R81), an unmapped byte in the one byte it is (R88). -/
def Sys2Proof.Laws.EncodedLength.Statement (i : Sys2Proof.Instr) : Prop :=
  (Sys2Proof.encode i).length = max 1 i.length

namespace Sys2Proof.Laws.EncodedLength

theorem ldaImmediate (v : Byte) : Statement (.ldaImmediate v) := rfl
theorem ldaZeroPage (z : Byte) : Statement (.ldaZeroPage z) := rfl
theorem ldaZeroPageX (z : Byte) : Statement (.ldaZeroPageX z) := rfl
theorem ldaAbsolute (w : U16) : Statement (.ldaAbsolute w) := rfl
theorem ldaAbsoluteX (w : U16) : Statement (.ldaAbsoluteX w) := rfl
theorem ldaAbsoluteY (w : U16) : Statement (.ldaAbsoluteY w) := rfl
theorem ldaIndirectX (z : Byte) : Statement (.ldaIndirectX z) := rfl
theorem ldaIndirectY (z : Byte) : Statement (.ldaIndirectY z) := rfl
theorem ldxImmediate (v : Byte) : Statement (.ldxImmediate v) := rfl
theorem ldxZeroPage (z : Byte) : Statement (.ldxZeroPage z) := rfl
theorem ldxZeroPageY (z : Byte) : Statement (.ldxZeroPageY z) := rfl
theorem ldxAbsolute (w : U16) : Statement (.ldxAbsolute w) := rfl
theorem ldxAbsoluteY (w : U16) : Statement (.ldxAbsoluteY w) := rfl
theorem ldyImmediate (v : Byte) : Statement (.ldyImmediate v) := rfl
theorem ldyZeroPage (z : Byte) : Statement (.ldyZeroPage z) := rfl
theorem ldyZeroPageX (z : Byte) : Statement (.ldyZeroPageX z) := rfl
theorem ldyAbsolute (w : U16) : Statement (.ldyAbsolute w) := rfl
theorem ldyAbsoluteX (w : U16) : Statement (.ldyAbsoluteX w) := rfl
theorem staZeroPage (z : Byte) : Statement (.staZeroPage z) := rfl
theorem staZeroPageX (z : Byte) : Statement (.staZeroPageX z) := rfl
theorem staAbsolute (w : U16) : Statement (.staAbsolute w) := rfl
theorem staAbsoluteX (w : U16) : Statement (.staAbsoluteX w) := rfl
theorem staAbsoluteY (w : U16) : Statement (.staAbsoluteY w) := rfl
theorem staIndirectX (z : Byte) : Statement (.staIndirectX z) := rfl
theorem staIndirectY (z : Byte) : Statement (.staIndirectY z) := rfl
theorem stxZeroPage (z : Byte) : Statement (.stxZeroPage z) := rfl
theorem stxZeroPageY (z : Byte) : Statement (.stxZeroPageY z) := rfl
theorem stxAbsolute (w : U16) : Statement (.stxAbsolute w) := rfl
theorem styZeroPage (z : Byte) : Statement (.styZeroPage z) := rfl
theorem styZeroPageX (z : Byte) : Statement (.styZeroPageX z) := rfl
theorem styAbsolute (w : U16) : Statement (.styAbsolute w) := rfl
theorem tax : Statement (.tax) := rfl
theorem tay : Statement (.tay) := rfl
theorem tsx : Statement (.tsx) := rfl
theorem txa : Statement (.txa) := rfl
theorem txs : Statement (.txs) := rfl
theorem tya : Statement (.tya) := rfl
theorem incZeroPage (z : Byte) : Statement (.incZeroPage z) := rfl
theorem incZeroPageX (z : Byte) : Statement (.incZeroPageX z) := rfl
theorem incAbsolute (w : U16) : Statement (.incAbsolute w) := rfl
theorem incAbsoluteX (w : U16) : Statement (.incAbsoluteX w) := rfl
theorem decZeroPage (z : Byte) : Statement (.decZeroPage z) := rfl
theorem decZeroPageX (z : Byte) : Statement (.decZeroPageX z) := rfl
theorem decAbsolute (w : U16) : Statement (.decAbsolute w) := rfl
theorem decAbsoluteX (w : U16) : Statement (.decAbsoluteX w) := rfl
theorem inx : Statement (.inx) := rfl
theorem iny : Statement (.iny) := rfl
theorem dex : Statement (.dex) := rfl
theorem dey : Statement (.dey) := rfl
theorem jmpAbsolute (w : U16) : Statement (.jmpAbsolute w) := rfl
theorem jmpIndirect (w : U16) : Statement (.jmpIndirect w) := rfl
theorem bcc (d : Byte) : Statement (.bcc d) := rfl
theorem bcs (d : Byte) : Statement (.bcs d) := rfl
theorem beq (d : Byte) : Statement (.beq d) := rfl
theorem bne (d : Byte) : Statement (.bne d) := rfl
theorem bmi (d : Byte) : Statement (.bmi d) := rfl
theorem bpl (d : Byte) : Statement (.bpl d) := rfl
theorem bvc (d : Byte) : Statement (.bvc d) := rfl
theorem bvs (d : Byte) : Statement (.bvs d) := rfl
theorem adcImmediate (v : Byte) : Statement (.adcImmediate v) := rfl
theorem adcZeroPage (z : Byte) : Statement (.adcZeroPage z) := rfl
theorem adcZeroPageX (z : Byte) : Statement (.adcZeroPageX z) := rfl
theorem adcAbsolute (w : U16) : Statement (.adcAbsolute w) := rfl
theorem adcAbsoluteX (w : U16) : Statement (.adcAbsoluteX w) := rfl
theorem adcAbsoluteY (w : U16) : Statement (.adcAbsoluteY w) := rfl
theorem adcIndirectX (z : Byte) : Statement (.adcIndirectX z) := rfl
theorem adcIndirectY (z : Byte) : Statement (.adcIndirectY z) := rfl
theorem sbcImmediate (v : Byte) : Statement (.sbcImmediate v) := rfl
theorem sbcZeroPage (z : Byte) : Statement (.sbcZeroPage z) := rfl
theorem sbcZeroPageX (z : Byte) : Statement (.sbcZeroPageX z) := rfl
theorem sbcAbsolute (w : U16) : Statement (.sbcAbsolute w) := rfl
theorem sbcAbsoluteX (w : U16) : Statement (.sbcAbsoluteX w) := rfl
theorem sbcAbsoluteY (w : U16) : Statement (.sbcAbsoluteY w) := rfl
theorem sbcIndirectX (z : Byte) : Statement (.sbcIndirectX z) := rfl
theorem sbcIndirectY (z : Byte) : Statement (.sbcIndirectY z) := rfl
theorem pha : Statement (.pha) := rfl
theorem php : Statement (.php) := rfl
theorem pla : Statement (.pla) := rfl
theorem plp : Statement (.plp) := rfl
theorem jsr (w : U16) : Statement (.jsr w) := rfl
theorem rts : Statement (.rts) := rfl
theorem rti : Statement (.rti) := rfl
theorem unmapped (op : Byte) : Statement (.unmapped op) := rfl

end Sys2Proof.Laws.EncodedLength
end

