-- ==== Sys2Proof/Tests/Slice0.lean ====
section
/-! SUPPORT. This model's own tests: well-formedness, decoding, single steps and witnesses of the statements' hypotheses. The expected values are those of
95_test_vectors.md (the vector's id is in the theorem's name) or of the rule named. -/

namespace Sys2Proof.Tests

open Sys2Proof Sys2Proof.Machine Sys2Proof.Claims

/-! ## Well-formedness: the one check is that an unmapped byte is one that R88 lists -/

theorem test_wellFormed_refuses_mapped_byte :
    (Instr.unmapped 0xA9#8).wellFormed = false ∧ (Instr.unmapped 0x08#8).wellFormed = false := by decide

theorem test_wellFormed_accepts :
    (Instr.unmapped 0xEA#8).wellFormed = true ∧ (Instr.staZeroPageX 0xFF#8).wellFormed = true := by decide

/-! ## Decoding: every mapped row of R86, its word written out bit by bit -/

/-- R86, R84: the rows of LDA; an operand byte is 0x12, a 16-bit operand 0x1234 with its high byte first. -/
theorem test_decode_lda :
    decode [0b10101001#8, 0b00010010#8] = .ok (.ldaImmediate 0x12#8) ∧
    decode [0b10100101#8, 0b00010010#8] = .ok (.ldaZeroPage 0x12#8) ∧
    decode [0b10110101#8, 0b00010010#8] = .ok (.ldaZeroPageX 0x12#8) ∧
    decode [0b10101101#8, 0b00010010#8, 0b00110100#8] = .ok (.ldaAbsolute 0x1234#16) ∧
    decode [0b10111101#8, 0b00010010#8, 0b00110100#8] = .ok (.ldaAbsoluteX 0x1234#16) ∧
    decode [0b10111001#8, 0b00010010#8, 0b00110100#8] = .ok (.ldaAbsoluteY 0x1234#16) ∧
    decode [0b10100001#8, 0b00010010#8] = .ok (.ldaIndirectX 0x12#8) ∧
    decode [0b10110001#8, 0b00010010#8] = .ok (.ldaIndirectY 0x12#8) := by decide

/-- R86, R84: the rows of LDX, LDY; an operand byte is 0x12, a 16-bit operand 0x1234 with its high byte first. -/
theorem test_decode_ldx_ldy :
    decode [0b10100010#8, 0b00010010#8] = .ok (.ldxImmediate 0x12#8) ∧
    decode [0b10100110#8, 0b00010010#8] = .ok (.ldxZeroPage 0x12#8) ∧
    decode [0b10110110#8, 0b00010010#8] = .ok (.ldxZeroPageY 0x12#8) ∧
    decode [0b10101110#8, 0b00010010#8, 0b00110100#8] = .ok (.ldxAbsolute 0x1234#16) ∧
    decode [0b10111110#8, 0b00010010#8, 0b00110100#8] = .ok (.ldxAbsoluteY 0x1234#16) ∧
    decode [0b10100000#8, 0b00010010#8] = .ok (.ldyImmediate 0x12#8) ∧
    decode [0b10100100#8, 0b00010010#8] = .ok (.ldyZeroPage 0x12#8) ∧
    decode [0b10110100#8, 0b00010010#8] = .ok (.ldyZeroPageX 0x12#8) ∧
    decode [0b10101100#8, 0b00010010#8, 0b00110100#8] = .ok (.ldyAbsolute 0x1234#16) ∧
    decode [0b10111100#8, 0b00010010#8, 0b00110100#8] = .ok (.ldyAbsoluteX 0x1234#16) := by decide

/-- R86, R84: the rows of STA, STX, STY; an operand byte is 0x12, a 16-bit operand 0x1234 with its high byte first. -/
theorem test_decode_sta_stx_sty :
    decode [0b10000101#8, 0b00010010#8] = .ok (.staZeroPage 0x12#8) ∧
    decode [0b10010101#8, 0b00010010#8] = .ok (.staZeroPageX 0x12#8) ∧
    decode [0b10001101#8, 0b00010010#8, 0b00110100#8] = .ok (.staAbsolute 0x1234#16) ∧
    decode [0b10011101#8, 0b00010010#8, 0b00110100#8] = .ok (.staAbsoluteX 0x1234#16) ∧
    decode [0b10011001#8, 0b00010010#8, 0b00110100#8] = .ok (.staAbsoluteY 0x1234#16) ∧
    decode [0b10000001#8, 0b00010010#8] = .ok (.staIndirectX 0x12#8) ∧
    decode [0b10010001#8, 0b00010010#8] = .ok (.staIndirectY 0x12#8) ∧
    decode [0b10000110#8, 0b00010010#8] = .ok (.stxZeroPage 0x12#8) ∧
    decode [0b10010110#8, 0b00010010#8] = .ok (.stxZeroPageY 0x12#8) ∧
    decode [0b10001110#8, 0b00010010#8, 0b00110100#8] = .ok (.stxAbsolute 0x1234#16) ∧
    decode [0b10000100#8, 0b00010010#8] = .ok (.styZeroPage 0x12#8) ∧
    decode [0b10010100#8, 0b00010010#8] = .ok (.styZeroPageX 0x12#8) ∧
    decode [0b10001100#8, 0b00010010#8, 0b00110100#8] = .ok (.styAbsolute 0x1234#16) := by decide

/-- R86, R84: the rows of TAX, TAY, TSX, TXA, TXS, TYA; an operand byte is 0x12, a 16-bit operand 0x1234 with its high byte first. -/
theorem test_decode_transfer :
    decode [0b10101010#8] = .ok (.tax) ∧
    decode [0b10101000#8] = .ok (.tay) ∧
    decode [0b10111010#8] = .ok (.tsx) ∧
    decode [0b10001010#8] = .ok (.txa) ∧
    decode [0b10011010#8] = .ok (.txs) ∧
    decode [0b10011000#8] = .ok (.tya) := by decide

/-- R86, R84: the rows of INC, DEC, INX, INY, DEX, DEY; an operand byte is 0x12, a 16-bit operand 0x1234 with its high byte first. -/
theorem test_decode_incDec :
    decode [0b11100110#8, 0b00010010#8] = .ok (.incZeroPage 0x12#8) ∧
    decode [0b11110110#8, 0b00010010#8] = .ok (.incZeroPageX 0x12#8) ∧
    decode [0b11101110#8, 0b00010010#8, 0b00110100#8] = .ok (.incAbsolute 0x1234#16) ∧
    decode [0b11111110#8, 0b00010010#8, 0b00110100#8] = .ok (.incAbsoluteX 0x1234#16) ∧
    decode [0b11000110#8, 0b00010010#8] = .ok (.decZeroPage 0x12#8) ∧
    decode [0b11010110#8, 0b00010010#8] = .ok (.decZeroPageX 0x12#8) ∧
    decode [0b11001110#8, 0b00010010#8, 0b00110100#8] = .ok (.decAbsolute 0x1234#16) ∧
    decode [0b11011110#8, 0b00010010#8, 0b00110100#8] = .ok (.decAbsoluteX 0x1234#16) ∧
    decode [0b11101000#8] = .ok (.inx) ∧
    decode [0b11001000#8] = .ok (.iny) ∧
    decode [0b11001010#8] = .ok (.dex) ∧
    decode [0b10001000#8] = .ok (.dey) := by decide

/-- R86, R84: the rows of JMP, BCC, BCS, BEQ, BNE, BMI, BPL, BVC, BVS; an operand byte is 0x12, a 16-bit operand 0x1234 with its high byte first. -/
theorem test_decode_jumpBranch :
    decode [0b01001100#8, 0b00010010#8, 0b00110100#8] = .ok (.jmpAbsolute 0x1234#16) ∧
    decode [0b01101100#8, 0b00010010#8, 0b00110100#8] = .ok (.jmpIndirect 0x1234#16) ∧
    decode [0b10010000#8, 0b00010010#8] = .ok (.bcc 0x12#8) ∧
    decode [0b10110000#8, 0b00010010#8] = .ok (.bcs 0x12#8) ∧
    decode [0b11110000#8, 0b00010010#8] = .ok (.beq 0x12#8) ∧
    decode [0b11010000#8, 0b00010010#8] = .ok (.bne 0x12#8) ∧
    decode [0b00110000#8, 0b00010010#8] = .ok (.bmi 0x12#8) ∧
    decode [0b00010000#8, 0b00010010#8] = .ok (.bpl 0x12#8) ∧
    decode [0b01010000#8, 0b00010010#8] = .ok (.bvc 0x12#8) ∧
    decode [0b01110000#8, 0b00010010#8] = .ok (.bvs 0x12#8) := by decide

/-- R86, R84: the rows of ADC; an operand byte is 0x12, a 16-bit operand 0x1234 with its high byte first. -/
theorem test_decode_adc :
    decode [0b01101001#8, 0b00010010#8] = .ok (.adcImmediate 0x12#8) ∧
    decode [0b01100101#8, 0b00010010#8] = .ok (.adcZeroPage 0x12#8) ∧
    decode [0b01110101#8, 0b00010010#8] = .ok (.adcZeroPageX 0x12#8) ∧
    decode [0b01101101#8, 0b00010010#8, 0b00110100#8] = .ok (.adcAbsolute 0x1234#16) ∧
    decode [0b01111101#8, 0b00010010#8, 0b00110100#8] = .ok (.adcAbsoluteX 0x1234#16) ∧
    decode [0b01111001#8, 0b00010010#8, 0b00110100#8] = .ok (.adcAbsoluteY 0x1234#16) ∧
    decode [0b01100001#8, 0b00010010#8] = .ok (.adcIndirectX 0x12#8) ∧
    decode [0b01110001#8, 0b00010010#8] = .ok (.adcIndirectY 0x12#8) := by decide

/-- R86, R84: the rows of SBC; an operand byte is 0x12, a 16-bit operand 0x1234 with its high byte first. -/
theorem test_decode_sbc :
    decode [0b11101001#8, 0b00010010#8] = .ok (.sbcImmediate 0x12#8) ∧
    decode [0b11100101#8, 0b00010010#8] = .ok (.sbcZeroPage 0x12#8) ∧
    decode [0b11110101#8, 0b00010010#8] = .ok (.sbcZeroPageX 0x12#8) ∧
    decode [0b11101101#8, 0b00010010#8, 0b00110100#8] = .ok (.sbcAbsolute 0x1234#16) ∧
    decode [0b11111101#8, 0b00010010#8, 0b00110100#8] = .ok (.sbcAbsoluteX 0x1234#16) ∧
    decode [0b11111001#8, 0b00010010#8, 0b00110100#8] = .ok (.sbcAbsoluteY 0x1234#16) ∧
    decode [0b11100001#8, 0b00010010#8] = .ok (.sbcIndirectX 0x12#8) ∧
    decode [0b11110001#8, 0b00010010#8] = .ok (.sbcIndirectY 0x12#8) := by decide

/-- R86, R84: the rows of PHA, PHP, PLA, PLP, JSR, RTS, RTI; an operand byte is 0x12, a 16-bit operand 0x1234 with its high byte first. -/
theorem test_decode_stack :
    decode [0b01001000#8] = .ok (.pha) ∧
    decode [0b00001000#8] = .ok (.php) ∧
    decode [0b01101000#8] = .ok (.pla) ∧
    decode [0b00101000#8] = .ok (.plp) ∧
    decode [0b00100000#8, 0b00010010#8, 0b00110100#8] = .ok (.jsr 0x1234#16) ∧
    decode [0b01100000#8] = .ok (.rts) ∧
    decode [0b01000000#8] = .ok (.rti) := by decide
/-- R88: bytes next to mapped ones, and open bus's 0xFF; the bytes after them are not read. -/
theorem test_decode_unmapped :
    decode [0b00000000#8] = .ok (.unmapped 0x00#8) ∧ decode [0b11101010#8, 0x12#8] = .ok (.unmapped 0xEA#8) ∧
    decode [0b10001001#8] = .ok (.unmapped 0x89#8) ∧ decode [0b11111111#8] = .ok (.unmapped 0xFF#8) := by decide

/-- Bytes that end too early are refused by name. -/
theorem test_decode_too_short :
    decode [] = .error .noOpcode ∧ decode [0xA9#8] = .error (.missingOperand 0xA9#8) ∧
    decode [0xAD#8, 0x12#8] = .error (.missingOperand 0xAD#8) := by decide

/-! ## The assembler's side: the examples of R90 and the rejections of R91 -/

theorem test_assemble_examples :
    assemble .lda .immediate 0x05 0x0600#16 = some [0xA9#8, 0x05#8] ∧
    assemble .sta .absolute 0x0200 0x0600#16 = some [0x8D#8, 0x02#8, 0x00#8] ∧
    assemble .jmp .indirect 0x02FF 0x0600#16 = some [0x6C#8, 0x02#8, 0xFF#8] ∧
    assemble .inx .implied 0 0x0600#16 = some [0xE8#8] ∧
    assemble .bne .relative 0x0604 0x0607#16 = some [0xD0#8, 0xFB#8] ∧
    assemble .bmi .relative 0xFF82 0x0000#16 = some [0x30#8, 0x80#8] := by decide

theorem test_assemble_rejects :
    assemble .lda .immediate 0x100 0x0600#16 = none ∧ assemble .stx .absoluteY 0x0200 0x0600#16 = none ∧
    assemble .bne .relative 0x0682 0x0600#16 = none ∧ assemble .bne .relative 0x0681 0x0600#16 = some [0xD0#8, 0x7F#8] := by
  decide

/-- The model's choice (log 14), not R91's: a 16-bit value above 0xFFFF is rejected, an Implied value is ignored. -/
theorem test_assemble_chosen_bounds :
    assemble .lda .absolute 0x10000 0x0600#16 = none ∧ assemble .jmp .indirect 0x10000 0x0600#16 = none ∧
    assemble .bne .relative 0x10602 0x0600#16 = none ∧ assemble .inx .implied 0x10000 0x0600#16 = some [0xE8#8] := by decide

theorem test_spelling :
    spelling (.ldaImmediate 0x05#8) 0x0600#16 = some ['L', 'D', 'A', ' ', '#', '$', '0', '5'] ∧
    spelling (.ldaAbsoluteX 0x00F0#16) 0x0600#16 = some ['L', 'D', 'A', ' ', '$', '0', '0', 'F', '0', ',', 'X'] ∧
    spelling (.ldaIndirectY 0x20#8) 0x0600#16 = some ['L', 'D', 'A', ' ', '(', '$', '2', '0', ')', ',', 'Y'] ∧
    spelling (.bne 0xFB#8) 0x0607#16 = some ['B', 'N', 'E', ' ', '$', '0', '6', '0', '4'] ∧
    spelling (.unmapped 0xEA#8) 0x0600#16 = none := by decide

/-! ## One step: the derived vectors of 95_test_vectors.md, section 2 -/

/-- The registers that a test looks at. -/
structure Regs where
  a : Byte
  x : Byte
  y : Byte
  s : Byte
  p : Byte
  pc : U16
  remaining : Nat
deriving DecidableEq, Repr

/-- A small machine: reset with PC at `pc`, `code` from there on and single bytes of storage (95_test_vectors.md, conventions). -/
def start (pc : U16) (code : List Byte) (data : List (U16 × Byte)) : State :=
  let s := code.zipIdx.foldl (fun s c => s.write (pc + BitVec.ofNat 16 c.2) c.1) (State.launch [] [] [] pc [])
  data.foldl (fun s c => s.write c.1 c.2) s

/-- The registers, and the bytes at some addresses, after one step. -/
def after (s : State) (addresses : List U16) : Option (Regs × List Byte) :=
  match step s with
  | .next t => some (⟨t.a, t.x, t.y, t.s, t.p, t.pc, t.remainingCycles⟩, addresses.map t.read)
  | .fault _ => none
  | .refused _ => none

/-! ### Addressing modes (2.1) -/

theorem test_A2_lda :
    after { start 0x0600#16 [0xA5#8, 0x10#8] [(0x0010#16, 0x00#8)] with a := 0x55#8 } [] =
      some (⟨0x00#8, 0x00#8, 0x00#8, 0xFF#8, 0x02#8, 0x0602#16, 2⟩, []) := by decide

theorem test_A3_lda :
    after { start 0x0600#16 [0xB5#8, 0xF0#8] [(0x0010#16, 0x33#8), (0x0110#16, 0x99#8)] with x := 0x20#8 } [] =
      some (⟨0x33#8, 0x20#8, 0x00#8, 0xFF#8, 0x00#8, 0x0602#16, 3⟩, []) := by decide

theorem test_A4_ldx :
    after { start 0x0600#16 [0xB6#8, 0xFF#8] [(0x0001#16, 0x81#8), (0x0101#16, 0x11#8)] with y := 0x02#8 } [] =
      some (⟨0x00#8, 0x81#8, 0x02#8, 0xFF#8, 0x80#8, 0x0602#16, 3⟩, []) := by decide

theorem test_A5_lda :
    after (start 0x0600#16 [0xAD#8, 0x01#8, 0x23#8] [(0x0123#16, 0x42#8), (0x2301#16, 0x99#8)]) [] =
      some (⟨0x42#8, 0x00#8, 0x00#8, 0xFF#8, 0x00#8, 0x0603#16, 3⟩, []) := by decide

theorem test_A7_lda :
    after { start 0x0600#16 [0xBD#8, 0x01#8, 0x01#8] [(0x0200#16, 0x08#8)] with x := 0xFF#8 } [] =
      some (⟨0x08#8, 0xFF#8, 0x00#8, 0xFF#8, 0x00#8, 0x0603#16, 4⟩, []) := by decide

theorem test_A8_lda :
    after { start 0x0600#16 [0xB9#8, 0xFF#8, 0xFF#8] [(0x0001#16, 0x09#8)] with y := 0x02#8 } [] =
      some (⟨0x09#8, 0x00#8, 0x02#8, 0xFF#8, 0x00#8, 0x0603#16, 4⟩, []) := by decide

theorem test_A10_lda :
    after { start 0x0600#16 [0xA1#8, 0xFE#8] [(0x00FF#16, 0x34#8), (0x0000#16, 0x02#8), (0x0234#16, 0x77#8), (0x0100#16, 0x05#8)] with x := 0x01#8 } [] =
      some (⟨0x77#8, 0x01#8, 0x00#8, 0xFF#8, 0x00#8, 0x0602#16, 5⟩, []) := by decide

theorem test_A11_lda :
    after { start 0x0600#16 [0xB1#8, 0xFF#8] [(0x00FF#16, 0xF0#8), (0x0000#16, 0x02#8), (0x0310#16, 0x66#8), (0x0100#16, 0x07#8)] with y := 0x20#8 } [] =
      some (⟨0x66#8, 0x00#8, 0x20#8, 0xFF#8, 0x00#8, 0x0602#16, 5⟩, []) := by decide

theorem test_A13_sta :
    after { start 0x0600#16 [0x91#8, 0x40#8] [(0x0040#16, 0x01#8), (0x0041#16, 0x03#8)] with y := 0xFF#8, a := 0x21#8 } [0x0400#16] =
      some (⟨0x21#8, 0x00#8, 0xFF#8, 0xFF#8, 0x00#8, 0x0602#16, 5⟩, [0x21#8]) := by decide

theorem test_A15_jmp :
    after (start 0x0600#16 [0x6C#8, 0x02#8, 0xFF#8] [(0x02FF#16, 0x34#8), (0x0200#16, 0x12#8), (0x0300#16, 0x56#8)]) [] =
      some (⟨0x00#8, 0x00#8, 0x00#8, 0xFF#8, 0x00#8, 0x1234#16, 4⟩, []) := by decide

theorem test_A16_bne :
    after (start 0x0700#16 [0xD0#8, 0xFC#8] []) [] =
      some (⟨0x00#8, 0x00#8, 0x00#8, 0xFF#8, 0x00#8, 0x06FE#16, 3⟩, []) := by decide

theorem test_A17_bne :
    after (start 0x06FE#16 [0xD0#8, 0x05#8] []) [] =
      some (⟨0x00#8, 0x00#8, 0x00#8, 0xFF#8, 0x00#8, 0x0705#16, 2⟩, []) := by decide

theorem test_A18_lda :
    after (start 0x1FFF#16 [0xA9#8] [(0x2000#16, 0x9C#8)]) [] =
      some (⟨0x9C#8, 0x00#8, 0x00#8, 0xFF#8, 0x80#8, 0x2001#16, 1⟩, []) := by decide

/-! ### Load and store (2.2) -/

theorem test_L1_lda :
    after { start 0x0600#16 [0xA9#8, 0x00#8] [] with a := 0x55#8, p := 0x80#8 } [] =
      some (⟨0x00#8, 0x00#8, 0x00#8, 0xFF#8, 0x02#8, 0x0602#16, 1⟩, []) := by decide

theorem test_L2_ldx :
    after (start 0x0600#16 [0xAE#8, 0x02#8, 0x00#8] [(0x0200#16, 0xFF#8)]) [] =
      some (⟨0x00#8, 0xFF#8, 0x00#8, 0xFF#8, 0x80#8, 0x0603#16, 3⟩, []) := by decide

theorem test_L3_ldy :
    after { start 0x0600#16 [0xB4#8, 0x10#8] [(0x0015#16, 0x7F#8)] with x := 0x05#8 } [] =
      some (⟨0x00#8, 0x05#8, 0x7F#8, 0xFF#8, 0x00#8, 0x0602#16, 3⟩, []) := by decide

theorem test_L5_ldy :
    after { start 0x0600#16 [0xBC#8, 0x02#8, 0xF0#8] [(0x0300#16, 0x80#8)] with x := 0x10#8 } [] =
      some (⟨0x00#8, 0x10#8, 0x80#8, 0xFF#8, 0x80#8, 0x0603#16, 4⟩, []) := by decide

theorem test_L6_sta :
    after { start 0x0600#16 [0x8D#8, 0x02#8, 0x00#8] [] with a := 0xAB#8, p := 0x82#8 } [0x0200#16] =
      some (⟨0xAB#8, 0x00#8, 0x00#8, 0xFF#8, 0x82#8, 0x0603#16, 3⟩, [0xAB#8]) := by decide

theorem test_L7_stx :
    after { start 0x0600#16 [0x96#8, 0x10#8] [] with x := 0x12#8, y := 0xF8#8 } [0x0008#16] =
      some (⟨0x00#8, 0x12#8, 0xF8#8, 0xFF#8, 0x00#8, 0x0602#16, 3⟩, [0x12#8]) := by decide

theorem test_L8_sty :
    after { start 0x0600#16 [0x94#8, 0x10#8] [] with y := 0x34#8, x := 0x01#8 } [0x0011#16] =
      some (⟨0x00#8, 0x01#8, 0x34#8, 0xFF#8, 0x00#8, 0x0602#16, 3⟩, [0x34#8]) := by decide

theorem test_L9_sta :
    after { start 0x0600#16 [0x8D#8, 0x20#8, 0x09#8] [] with a := 0x7F#8 } [0x2009#16] =
      some (⟨0x7F#8, 0x00#8, 0x00#8, 0xFF#8, 0x00#8, 0x0603#16, 3⟩, [0x7F#8]) := by decide

theorem test_L11_sta :
    after { start 0x0600#16 [0x8D#8, 0x40#8, 0x18#8] [] with a := 0x11#8 } [0x4018#16] =
      some (⟨0x11#8, 0x00#8, 0x00#8, 0xFF#8, 0x00#8, 0x0603#16, 3⟩, [0xFF#8]) := by decide

theorem test_L14_sta :
    after { start 0x0600#16 [0x81#8, 0x20#8] [(0x0024#16, 0x00#8), (0x0025#16, 0x05#8)] with a := 0x99#8, x := 0x04#8 } [0x0500#16] =
      some (⟨0x99#8, 0x04#8, 0x00#8, 0xFF#8, 0x00#8, 0x0602#16, 5⟩, [0x99#8]) := by decide

/-! ### Transfers (2.3) -/

theorem test_T1_tax :
    after { start 0x0600#16 [0xAA#8] [] with a := 0x00#8, x := 0x55#8 } [] =
      some (⟨0x00#8, 0x00#8, 0x00#8, 0xFF#8, 0x02#8, 0x0601#16, 1⟩, []) := by decide

theorem test_T2_tay :
    after { start 0x0600#16 [0xA8#8] [] with a := 0x80#8 } [] =
      some (⟨0x80#8, 0x00#8, 0x80#8, 0xFF#8, 0x80#8, 0x0601#16, 1⟩, []) := by decide

theorem test_T3_tsx :
    after (start 0x0600#16 [0xBA#8] []) [] =
      some (⟨0x00#8, 0xFF#8, 0x00#8, 0xFF#8, 0x80#8, 0x0601#16, 1⟩, []) := by decide

theorem test_T4_txa :
    after { start 0x0600#16 [0x8A#8] [] with x := 0x7F#8, a := 0x00#8, p := 0x82#8 } [] =
      some (⟨0x7F#8, 0x7F#8, 0x00#8, 0xFF#8, 0x00#8, 0x0601#16, 1⟩, []) := by decide

theorem test_T5_txs :
    after { start 0x0600#16 [0x9A#8] [] with x := 0x00#8, p := 0x80#8 } [] =
      some (⟨0x00#8, 0x00#8, 0x00#8, 0x00#8, 0x80#8, 0x0601#16, 1⟩, []) := by decide

theorem test_T7_tya :
    after { start 0x0600#16 [0x98#8] [] with y := 0x00#8, a := 0x01#8 } [] =
      some (⟨0x00#8, 0x00#8, 0x00#8, 0xFF#8, 0x02#8, 0x0601#16, 1⟩, []) := by decide

/-! ### Increment and decrement (2.4) -/

theorem test_I1_inc :
    after (start 0x0600#16 [0xE6#8, 0x10#8] [(0x0010#16, 0xFF#8)]) [0x0010#16] =
      some (⟨0x00#8, 0x00#8, 0x00#8, 0xFF#8, 0x02#8, 0x0602#16, 4⟩, [0x00#8]) := by decide

theorem test_I3_dec :
    after (start 0x0600#16 [0xC6#8, 0x10#8] [(0x0010#16, 0x00#8)]) [0x0010#16] =
      some (⟨0x00#8, 0x00#8, 0x00#8, 0xFF#8, 0x80#8, 0x0602#16, 4⟩, [0xFF#8]) := by decide

theorem test_I5_inc :
    after { start 0x0600#16 [0xFE#8, 0x02#8, 0xF0#8] [(0x0310#16, 0x41#8)] with x := 0x20#8 } [0x0310#16] =
      some (⟨0x00#8, 0x20#8, 0x00#8, 0xFF#8, 0x00#8, 0x0603#16, 6⟩, [0x42#8]) := by decide

theorem test_I6_dec :
    after { start 0x0600#16 [0xD6#8, 0xF0#8] [(0x0010#16, 0x80#8)] with x := 0x20#8 } [0x0010#16] =
      some (⟨0x00#8, 0x20#8, 0x00#8, 0xFF#8, 0x00#8, 0x0602#16, 5⟩, [0x7F#8]) := by decide

theorem test_I7_inc :
    after (start 0x0600#16 [0xEE#8, 0x50#8, 0x00#8] []) [0x5000#16] =
      some (⟨0x00#8, 0x00#8, 0x00#8, 0xFF#8, 0x02#8, 0x0603#16, 5⟩, [0xFF#8]) := by decide

theorem test_I8_inc :
    after { start 0x0600#16 [0xEE#8, 0x02#8, 0x00#8] [(0x0200#16, 0x0F#8)] with p := 0x41#8 } [0x0200#16] =
      some (⟨0x00#8, 0x00#8, 0x00#8, 0xFF#8, 0x41#8, 0x0603#16, 5⟩, [0x10#8]) := by decide

theorem test_I9_inx :
    after { start 0x0600#16 [0xE8#8] [] with x := 0xFF#8 } [] =
      some (⟨0x00#8, 0x00#8, 0x00#8, 0xFF#8, 0x02#8, 0x0601#16, 1⟩, []) := by decide

theorem test_I11_iny :
    after { start 0x0600#16 [0xC8#8] [] with y := 0xFF#8 } [] =
      some (⟨0x00#8, 0x00#8, 0x00#8, 0xFF#8, 0x02#8, 0x0601#16, 1⟩, []) := by decide

theorem test_I12_dex :
    after { start 0x0600#16 [0xCA#8] [] with x := 0x01#8 } [] =
      some (⟨0x00#8, 0x00#8, 0x00#8, 0xFF#8, 0x02#8, 0x0601#16, 1⟩, []) := by decide

theorem test_I14_dey :
    after { start 0x0600#16 [0x88#8] [] with y := 0x00#8 } [] =
      some (⟨0x00#8, 0x00#8, 0xFF#8, 0xFF#8, 0x80#8, 0x0601#16, 1⟩, []) := by decide

/-! ### Jump and branches (2.5) -/

theorem test_J1_jmp :
    after (start 0x0600#16 [0x4C#8, 0x06#8, 0x0A#8] []) [] =
      some (⟨0x00#8, 0x00#8, 0x00#8, 0xFF#8, 0x00#8, 0x060A#16, 2⟩, []) := by decide

theorem test_B1_bcc :
    after (start 0x0600#16 [0x90#8, 0x10#8] []) [] =
      some (⟨0x00#8, 0x00#8, 0x00#8, 0xFF#8, 0x00#8, 0x0612#16, 2⟩, []) := by decide

theorem test_B2_bcc :
    after { start 0x0600#16 [0x90#8, 0x10#8] [] with p := 0x01#8 } [] =
      some (⟨0x00#8, 0x00#8, 0x00#8, 0xFF#8, 0x01#8, 0x0602#16, 1⟩, []) := by decide

theorem test_B3_bcs :
    after { start 0x0600#16 [0xB0#8, 0x10#8] [] with p := 0x01#8 } [] =
      some (⟨0x00#8, 0x00#8, 0x00#8, 0xFF#8, 0x01#8, 0x0612#16, 2⟩, []) := by decide

theorem test_B4_bcs :
    after (start 0x0600#16 [0xB0#8, 0x10#8] []) [] =
      some (⟨0x00#8, 0x00#8, 0x00#8, 0xFF#8, 0x00#8, 0x0602#16, 1⟩, []) := by decide

theorem test_B5_beq :
    after { start 0x06FD#16 [0xF0#8, 0x05#8] [] with p := 0x02#8 } [] =
      some (⟨0x00#8, 0x00#8, 0x00#8, 0xFF#8, 0x02#8, 0x0704#16, 3⟩, []) := by decide

theorem test_B6_beq :
    after { start 0x06FD#16 [0xF0#8, 0x05#8] [] with p := 0x00#8 } [] =
      some (⟨0x00#8, 0x00#8, 0x00#8, 0xFF#8, 0x00#8, 0x06FF#16, 1⟩, []) := by decide

theorem test_B9_bmi :
    after { start 0x0000#16 [0x30#8, 0x80#8] [] with p := 0x80#8 } [] =
      some (⟨0x00#8, 0x00#8, 0x00#8, 0xFF#8, 0x80#8, 0xFF82#16, 3⟩, []) := by decide

theorem test_B11_bpl :
    after (start 0x0600#16 [0x10#8, 0x7F#8] []) [] =
      some (⟨0x00#8, 0x00#8, 0x00#8, 0xFF#8, 0x00#8, 0x0681#16, 2⟩, []) := by decide

theorem test_B12_bpl :
    after { start 0x0600#16 [0x10#8, 0x7F#8] [] with p := 0x80#8 } [] =
      some (⟨0x00#8, 0x00#8, 0x00#8, 0xFF#8, 0x80#8, 0x0602#16, 1⟩, []) := by decide

theorem test_B13_bvc :
    after (start 0x0600#16 [0x50#8, 0x02#8] []) [] =
      some (⟨0x00#8, 0x00#8, 0x00#8, 0xFF#8, 0x00#8, 0x0604#16, 2⟩, []) := by decide

theorem test_B14_bvs :
    after { start 0x0600#16 [0x70#8, 0x02#8] [] with p := 0x40#8 } [] =
      some (⟨0x00#8, 0x00#8, 0x00#8, 0xFF#8, 0x40#8, 0x0604#16, 2⟩, []) := by decide

theorem test_B15_bvs :
    after (start 0x0600#16 [0x70#8, 0x02#8] []) [] =
      some (⟨0x00#8, 0x00#8, 0x00#8, 0xFF#8, 0x00#8, 0x0602#16, 1⟩, []) := by decide

/-! ### ADC and SBC (2.6) -/

theorem test_AD2_adc :
    after { start 0x0600#16 [0x69#8, 0x01#8] [] with a := 0xFF#8, p := 0x00#8 } [] =
      some (⟨0x00#8, 0x00#8, 0x00#8, 0xFF#8, 0x03#8, 0x0602#16, 1⟩, []) := by decide

theorem test_AD5_adc :
    after { start 0x0600#16 [0x69#8, 0x90#8] [] with a := 0xD0#8, p := 0x00#8 } [] =
      some (⟨0x60#8, 0x00#8, 0x00#8, 0xFF#8, 0x41#8, 0x0602#16, 1⟩, []) := by decide

theorem test_AD10_adc :
    after { start 0x0600#16 [0x69#8, 0x09#8] [] with a := 0x09#8, p := 0x08#8 } [] =
      some (⟨0x12#8, 0x00#8, 0x00#8, 0xFF#8, 0x08#8, 0x0602#16, 1⟩, []) := by decide

theorem test_AD11_adc :
    after { start 0x0600#16 [0x7D#8, 0x02#8, 0xF0#8] [(0x0300#16, 0x01#8)] with a := 0x01#8, p := 0x01#8, x := 0x10#8 } [] =
      some (⟨0x03#8, 0x10#8, 0x00#8, 0xFF#8, 0x00#8, 0x0603#16, 4⟩, []) := by decide

theorem test_SB3_sbc :
    after { start 0x0600#16 [0xE9#8, 0x05#8] [] with a := 0x05#8, p := 0x00#8 } [] =
      some (⟨0xFF#8, 0x00#8, 0x00#8, 0xFF#8, 0x80#8, 0x0602#16, 1⟩, []) := by decide

theorem test_SB7_sbc :
    after { start 0x0600#16 [0xE9#8, 0x01#8] [] with a := 0x80#8, p := 0x01#8 } [] =
      some (⟨0x7F#8, 0x00#8, 0x00#8, 0xFF#8, 0x41#8, 0x0602#16, 1⟩, []) := by decide

theorem test_SB10_sbc :
    after { start 0x0600#16 [0xE9#8, 0x01#8] [] with a := 0x10#8, p := 0x09#8 } [] =
      some (⟨0x0F#8, 0x00#8, 0x00#8, 0xFF#8, 0x09#8, 0x0602#16, 1⟩, []) := by decide

theorem test_SB11_sbc :
    after { start 0x0600#16 [0xF1#8, 0x40#8] [(0x0040#16, 0xFF#8), (0x0041#16, 0x02#8), (0x0300#16, 0x40#8)] with a := 0x40#8, p := 0x01#8, y := 0x01#8 } [] =
      some (⟨0x00#8, 0x00#8, 0x01#8, 0xFF#8, 0x03#8, 0x0602#16, 5⟩, []) := by decide

/-! ### Stack and subroutine (2.7) -/

theorem test_K1_pha :
    after { start 0x0600#16 [0x48#8] [] with a := 0x80#8, s := 0xFD#8 } [0x01FD#16] =
      some (⟨0x80#8, 0x00#8, 0x00#8, 0xFC#8, 0x00#8, 0x0601#16, 2⟩, [0x80#8]) := by decide

theorem test_K2_pha :
    after { start 0x0600#16 [0x48#8] [] with a := 0x11#8, s := 0x00#8 } [0x0100#16] =
      some (⟨0x11#8, 0x00#8, 0x00#8, 0xFF#8, 0x00#8, 0x0601#16, 2⟩, [0x11#8]) := by decide

theorem test_K3_php :
    after (start 0x0600#16 [0x08#8] []) [0x01FF#16] =
      some (⟨0x00#8, 0x00#8, 0x00#8, 0xFE#8, 0x00#8, 0x0601#16, 2⟩, [0x30#8]) := by decide

theorem test_K4_php :
    after { start 0x0600#16 [0x08#8] [] with p := 0xCF#8 } [0x01FF#16] =
      some (⟨0x00#8, 0x00#8, 0x00#8, 0xFE#8, 0xCF#8, 0x0601#16, 2⟩, [0xFF#8]) := by decide

theorem test_K5_pla :
    after { start 0x0600#16 [0x68#8] [(0x01FD#16, 0x80#8)] with s := 0xFC#8 } [] =
      some (⟨0x80#8, 0x00#8, 0x00#8, 0xFD#8, 0x80#8, 0x0601#16, 3⟩, []) := by decide

theorem test_K6_pla :
    after { start 0x0600#16 [0x68#8] [(0x0100#16, 0x00#8)] with s := 0xFF#8, a := 0x55#8 } [] =
      some (⟨0x00#8, 0x00#8, 0x00#8, 0x00#8, 0x02#8, 0x0601#16, 3⟩, []) := by decide

theorem test_K7_plp :
    after { start 0x0600#16 [0x28#8] [(0x01FF#16, 0xB1#8)] with s := 0xFE#8 } [] =
      some (⟨0x00#8, 0x00#8, 0x00#8, 0xFF#8, 0x81#8, 0x0601#16, 3⟩, []) := by decide

theorem test_K8_plp :
    after { start 0x0600#16 [0x28#8] [(0x01FF#16, 0xFF#8)] with s := 0xFE#8, p := 0x01#8 } [] =
      some (⟨0x00#8, 0x00#8, 0x00#8, 0xFF#8, 0xCF#8, 0x0601#16, 3⟩, []) := by decide

theorem test_K10_jsr :
    after (start 0x0603#16 [0x20#8, 0x06#8, 0x10#8] []) [0x01FF#16, 0x01FE#16] =
      some (⟨0x00#8, 0x00#8, 0x00#8, 0xFD#8, 0x00#8, 0x0610#16, 5⟩, [0x06#8, 0x05#8]) := by decide

theorem test_K11_jsr :
    after { start 0x0603#16 [0x20#8, 0x06#8, 0x10#8] [] with s := 0x00#8 } [0x0100#16, 0x01FF#16] =
      some (⟨0x00#8, 0x00#8, 0x00#8, 0xFE#8, 0x00#8, 0x0610#16, 5⟩, [0x06#8, 0x05#8]) := by decide

theorem test_K14_rts :
    after { start 0x0600#16 [0x60#8] [(0x01FE#16, 0xFF#8), (0x01FF#16, 0xFF#8)] with s := 0xFD#8 } [] =
      some (⟨0x00#8, 0x00#8, 0x00#8, 0xFF#8, 0x00#8, 0x0000#16, 5⟩, []) := by decide

theorem test_K15_rts :
    after { start 0x0600#16 [0x60#8] [(0x01FF#16, 0x33#8), (0x0100#16, 0x02#8)] with s := 0xFE#8 } [] =
      some (⟨0x00#8, 0x00#8, 0x00#8, 0x00#8, 0x00#8, 0x0234#16, 5⟩, []) := by decide

theorem test_K16_rti :
    after { start 0x0600#16 [0x40#8] [(0x01FD#16, 0xB1#8), (0x01FE#16, 0x34#8), (0x01FF#16, 0x12#8)] with s := 0xFC#8 } [] =
      some (⟨0x00#8, 0x00#8, 0x00#8, 0xFF#8, 0x81#8, 0x1234#16, 5⟩, []) := by decide

theorem test_K17_rti :
    after { start 0x0600#16 [0x40#8] [(0x01FD#16, 0x30#8), (0x01FE#16, 0xFF#8), (0x01FF#16, 0xFF#8)] with s := 0xFC#8, p := 0x0C#8 } [] =
      some (⟨0x00#8, 0x00#8, 0x00#8, 0xFF#8, 0x00#8, 0xFFFF#16, 5⟩, []) := by decide

/-! ### Unmapped bytes (2.8) -/

theorem test_X1_byte :
    after (start 0x0600#16 [0x00#8] []) [] =
      some (⟨0x00#8, 0x00#8, 0x00#8, 0xFF#8, 0x00#8, 0x0600#16, 0⟩, []) := by decide

theorem test_X3_open :
    after (start 0x8000#16 [] []) [] =
      some (⟨0x00#8, 0x00#8, 0x00#8, 0xFF#8, 0x00#8, 0x8000#16, 0⟩, []) := by decide
/-! ## Ticks, the gap, reset -/

/-- X8 (R202, R205): INC AbsoluteX has its effect in its first tick and owes six more. -/
theorem test_X8_inc :
    after { start 0x0600#16 [0xFE#8, 0x02#8, 0xF0#8] [(0x0310#16, 0x41#8)] with x := 0x20#8 } [0x0310#16] =
      some (⟨0x00#8, 0x20#8, 0x00#8, 0xFF#8, 0x00#8, 0x0603#16, 6⟩, [0x42#8]) := by decide

/-- X11 (R204): a tick that owes cycles reads nothing and changes nothing else. -/
theorem test_X11_drain :
    after { start 0x0600#16 [0x00#8] [] with remainingCycles := 3 } [] =
      some (⟨0x00#8, 0x00#8, 0x00#8, 0xFF#8, 0x00#8, 0x0600#16, 2⟩, []) := by decide

/-- R65, as in the last program of 95_test_vectors.md: a peripheral write to PPU[2] lands after the tick that read it, seen at every mirror. -/
theorem test_gap_after_tick :
    after { start 0x0600#16 [0xAD#8, 0x20#8, 0x02#8] [] with env := [[⟨.ppu 2, 0x80#8⟩]] } [0x2002#16, 0x3FFA#16] =
      some (⟨0x00#8, 0x00#8, 0x00#8, 0xFF#8, 0x02#8, 0x0603#16, 3⟩, [0x80#8, 0x80#8]) := by decide

/-- R37: what reset leaves. -/
theorem test_reset :
    (State.reset.a, State.reset.x, State.reset.y, State.reset.s) = (0x00#8, 0x00#8, 0x00#8, 0xFF#8) ∧
    (State.reset.p, State.reset.pc, State.reset.remainingCycles) = (0x00#8, 0x0000#16, 0) := by decide

/-- A table word (spec/opcode_table.json numbers the first byte's bits 7..0) placed after reset runs next: LDA #$05 of S1. -/
theorem test_withFetchWord :
    decodeTableWord 16 0x05A9 = some (.ldaImmediate 0x05#8) ∧
    after (State.reset.withFetchWord 16 0x05A9) [] =
      some (⟨0x05#8, 0x00#8, 0x00#8, 0xFF#8, 0x00#8, 0x0002#16, 1⟩, []) := by decide

/-- R203, R7: the diagnostic is asked for at a boundary before an unmapped byte and not while cycles are owed. -/
theorem test_illegalOpcode :
    (start 0x0600#16 [0xEA#8] []).illegalOpcode = some 0xEA#8 ∧
    ({ start 0x0600#16 [0xEA#8] [] with remainingCycles := 1 } : State).illegalOpcode = none ∧
    (start 0x0600#16 [0xAA#8] []).illegalOpcode = none := by decide

/-! ## Witnesses: a state and operands that meet each statement's hypotheses, clause by clause -/

theorem witness_DecodeOfEncodeIsTheInstruction :
    (Instr.ldaAbsoluteX 0xFFFF#16).wellFormed = true ∧ (Instr.unmapped 0xFF#8).wellFormed = true := by decide

theorem witness_UnmappedBytesAreThoseListed :
    (decodeOp 0x00#8 0 0).mnemonic = .unmapped ∧ 0xFF#8 ∈ unmappedOpcodes ∧ 0xA9#8 ∉ unmappedOpcodes := by decide

/-- A byte, a word and a branch at the ends of their ranges. -/
theorem witness_AssemblerEmitsTheEncoding :
    assemble .lda .zeroPage 0xFF 0x0600#16 = some [0xA5#8, 0xFF#8] ∧
    assemble .jsr .absolute 0xFFFF 0x0600#16 = some [0x20#8, 0xFF#8, 0xFF#8] ∧
    assemble .bpl .relative 0x0582 0x0600#16 = some [0x10#8, 0x80#8] := by decide

/-- The ends of the four ranges of R51, each with the route that R51 gives it. -/
theorem witness_BusReadFollowsTheRouter :
    ((0x1FFF#16).toNat ≤ 0x1FFF ∧ route 0x1FFF#16 = .ram 0x7FF) ∧
    (0x2000 ≤ (0x2000#16).toNat ∧ (0x3FFF#16).toNat ≤ 0x3FFF ∧ route 0x2000#16 = .ppu 0 ∧ route 0x3FFF#16 = .ppu 7) ∧
    (0x4000 ≤ (0x4000#16).toNat ∧ (0x4017#16).toNat ≤ 0x4017 ∧ route 0x4000#16 = .apu 0 ∧ route 0x4017#16 = .apu 23) ∧
    (0x4018 ≤ (0x4018#16).toNat ∧ route 0x4018#16 = .openBus ∧ route 0xFFFF#16 = .openBus) := by decide

theorem witness_BusWriteReplacesOneElement :
    ((State.reset.write 0x1FFF#16 0x7F#8).ram = [(0x7FF, 0x7F#8)]) ∧
    ((State.reset.write 0x2000#16 0x7F#8).ppu = [(0, 0x7F#8)]) ∧
    ((State.reset.write 0x4017#16 0x7F#8).apu = [(23, 0x7F#8)]) ∧
    State.reset.write 0x4018#16 0x7F#8 = State.reset := by decide

/-- SP1 and SP2 of 95_test_vectors.md, and a pair of addresses that are no mirrors. -/
theorem witness_MirrorsSeeTheWrite :
    ((0x0810#16).toNat < 0x2000 ∧ (0x1810#16).toNat < 0x2000 ∧ (0x0810#16).toNat % 0x0800 = (0x1810#16).toNat % 0x0800) ∧
    (0x2000 ≤ (0x2009#16).toNat ∧ (0x3FF9#16).toNat < 0x4000 ∧ (0x2009#16).toNat % 8 = (0x3FF9#16).toNat % 8) ∧
    (0x4017#16).toNat < 0x4018 ∧ route 0x1FFF#16 ≠ route 0x2000#16 := by decide

theorem witness_OpenBusReadsFFAndDiscardsWrites :
    0x4018 ≤ (0x4018#16).toNat ∧ State.reset.read 0x4018#16 = 0xFF#8 ∧ ¬ 0x4018 ≤ (0x4017#16).toNat := by decide

theorem witness_CanonicalArraysReadingAlikeAreEqual :
    Memory.wf 8 [(0, 0x80#8), (7, 0x01#8)] = true ∧
    ∀ i, Memory.read [(0, 0x80#8), (7, 0x01#8)] i = Memory.read (Memory.write [(0, 0x80#8)] 7 0x01#8) i :=
  ⟨by decide, fun _ => rfl⟩

theorem witness_CarryAndOverflowSetters :
    (Instr.tax).mnemonic ∉ [Mnemonic.adc, .sbc, .plp, .rti] := by decide

theorem witness_DecimalAndInterruptDisableHaveNoEffect :
    (Instr.adcImmediate 0x09#8).mnemonic ∉ [Mnemonic.plp, .rti] ∧ (Instr.adcImmediate 0x09#8).mnemonic ≠ .php ∧
    exec (.adcImmediate 0x09#8) State.reset = .next (summed State.reset 0x09#8 2 2) :=
  ⟨by decide, by decide, rfl⟩

theorem witness_OnlyTheReadersDependOnAFlag :
    (Instr.bcc 0x10#8).mnemonic ∉ flagReaders .z ∧ (Instr.beq 0x10#8).mnemonic ∉ flagReaders .c ∧
    (Instr.bvc 0x10#8).mnemonic ∉ flagReaders .n ∧ (Instr.bmi 0x10#8).mnemonic ∉ flagReaders .v ∧
    (Instr.sbcImmediate 0x10#8).mnemonic ∉ flagReaders .d ∧ (Instr.rti).mnemonic ∉ flagReaders .i ∧
    (Instr.adcImmediate 0x10#8).mnemonic ∈ flagReaders .c ∧ (Instr.beq 0x10#8).mnemonic ∈ flagReaders .z ∧
    (Instr.bpl 0x10#8).mnemonic ∈ flagReaders .n ∧ (Instr.bvs 0x10#8).mnemonic ∈ flagReaders .v ∧
    (Instr.ldaImmediate 0x10#8).mnemonic ∉ flagReaders .z ∧ (flagsWritten (Instr.ldaImmediate 0x10#8).mnemonic).getLsbD 1 = true ∧
    (Instr.php).mnemonic ∈ flagReaders .d ∧ (Instr.php).mnemonic ∈ flagReaders .i := by decide

/-- The datum of R111's example, and the wrap of PC + 1. -/
theorem witness_DirectModesResolve :
    (start 0x0600#16 [0xA9#8, 0x05#8] []).read (0x0600#16 + 1) = 0x05#8 ∧
    (start 0xFFFF#16 [] [(0x0000#16, 0x05#8)]).read (0xFFFF#16 + 1) = 0x05#8 := by decide

/-- The pointer's successor wraps at its boundary values (R118, R119, R120). -/
theorem witness_IndirectModesResolve :
    let s := start 0x0600#16 [] [(0x00FF#16, 0xF0#8), (0x0000#16, 0x02#8), (0x0100#16, 0x07#8)]
    resolve (.indirectY 0xFF#8) s = ⟨0x02F0#16, false⟩ ∧ resolve (.indirectX 0xFF#8) s = ⟨0x02F0#16, false⟩ ∧
    resolve (.indirect 0x00FF#16) s = ⟨0x02F0#16, false⟩ := by decide

theorem witness_PageCrossingIsLowByteOverflow :
    crossed 0x0100#16 0xFF#8 = false ∧ crossed 0x0101#16 0xFF#8 = true := by decide

theorem witness_FetchedOperandIsWhatTheBusHolds :
    (start 0x0600#16 [0xBD#8, 0x02#8, 0xF0#8] []).fetched.operand = some (.absoluteX 0x02F0#16) ∧
    (start 0x0600#16 [0xA9#8, 0x05#8] []).fetched.operand = some (.immediate 0x05#8) := by decide

/-- The first and the last address with storage. -/
theorem witness_IncThenDecRestoresTheByte :
    (zeroPageAddress 0x00#8).toNat < 0x4018 ∧ (0x4017#16).toNat < 0x4018 ∧
    (0x4017#16 + State.reset.x.setWidth 16).toNat < 0x4018 := by decide

theorem witness_PullUndoesPush : State.reset.p &&& 0x30#8 = 0 ∧ 0xCF#8 &&& 0x30#8 = 0 := by decide

theorem witness_RtsReturnsAfterJsr :
    ∃ t, exec (.jsr 0x0610#16) State.reset = .next t ∧
      ({ t with a := 0x55#8, pc := 0x0610#16, remainingCycles := 0 } : State).s = t.s ∧
      ({ t with a := 0x55#8, pc := 0x0610#16, remainingCycles := 0 } : State).ram = t.ram :=
  ⟨_, rfl, rfl, rfl⟩

theorem witness_RegistersChangeOnlyByTheirWriters :
    (Instr.tax).mnemonic ∉ regWriters .a ∧ (Instr.tay).mnemonic ∉ regWriters .x ∧
    (Instr.tsx).mnemonic ∉ regWriters .y ∧ (Instr.pha).mnemonic ∉ regWriters .x ∧
    (Instr.staAbsolute 0x0200#16).mnemonic ∉ regWriters .s := by decide

theorem witness_MemoryChangesOnlyWhereStored :
    storeAddresses (.staAbsolute 0x0200#16) State.reset = [0x0200#16] ∧ route 0x0200#16 ≠ route 0x0201#16 ∧
    storeAddresses (.jsr 0x0200#16) State.reset = [0x01FF#16, 0x01FE#16] ∧
    route 0x01FF#16 ≠ route 0x01FD#16 ∧ route 0x01FE#16 ≠ route 0x01FD#16 ∧
    storeAddresses (.incAbsoluteX 0x4018#16) State.reset = [0x4018#16] ∧ route 0x4018#16 ≠ route 0x4017#16 ∧
    storeAddresses .rti State.reset = [] := by decide

theorem witness_ProgramCounterAdvancesByLength :
    transfersControl (.bcs 0x10#8) State.reset = false ∧ transfersControl (.unmapped 0xEA#8) State.reset = false ∧
    branchTaken State.reset (Instr.bcc 0x10#8).mnemonic = true ∧
    (Instr.jmpIndirect 0x02FF#16).mnemonic = .jmp ∧ (Instr.jsr 0x0610#16).mnemonic = .jsr ∧
    (Instr.rts).mnemonic = .rts ∧ (Instr.rti).mnemonic = .rti := by decide

theorem witness_AccumulatorReadersAndWriters :
    (Instr.inx).mnemonic ∉ [Mnemonic.lda, .txa, .tya, .pla, .adc, .sbc] ∧
    (Instr.txa).mnemonic ∉ [Mnemonic.sta, .tax, .tay, .pha, .adc, .sbc] ∧
    (Instr.txa).mnemonic ∈ [Mnemonic.lda, .txa, .tya, .pla] := by decide

theorem witness_StepRunsTheDecodedInstruction :
    (start 0x0600#16 [0xA9#8, 0x05#8] []).remainingCycles = 0 ∧
    decode (bytesAtPc (start 0x0600#16 [0xA9#8, 0x05#8] [])) = .ok (.ldaImmediate 0x05#8) ∧
    0 < ({ State.reset with remainingCycles := 1 } : State).remainingCycles := by decide

theorem witness_DrainTickOnlyCountsDown :
    0 < ({ State.reset with remainingCycles := 1 } : State).remainingCycles := by decide

/-- X1 and X3 of 95_test_vectors.md. -/
theorem witness_UnmappedOpcodeParks :
    (start 0x0600#16 [0x00#8] []).parked = true ∧ (start 0x8000#16 [] []).parked = true := by decide

/-- The least and the greatest cost of R208. -/
theorem witness_CyclesFollowTheCostTable :
    cost (.ldaImmediate 0x05#8) State.reset = some 2 ∧ cost (.incAbsoluteX 0x02F0#16) State.reset = some 7 ∧
    cost (.unmapped 0x00#8) State.reset = none := by decide

theorem witness_InstructionOccupiesItsCost :
    (start 0x0600#16 [0xFE#8, 0x02#8, 0xF0#8] []).remainingCycles = 0 ∧
    cost (start 0x0600#16 [0xFE#8, 0x02#8, 0xF0#8] []).fetched (start 0x0600#16 [0xFE#8, 0x02#8, 0xF0#8] []) = some 7 := by decide

/-- J2 and B16 of 95_test_vectors.md. -/
theorem witness_SelfLoopReturnsToItself :
    (start 0x0600#16 [0x4C#8, 0x06#8, 0x00#8] []).selfLoop = true ∧
    ({ start 0x0600#16 [0xF0#8, 0xFE#8] [] with p := 0x02#8 } : State).selfLoop = true := by decide

theorem witness_PeripheralGapWritesOnlyWindows :
    (0x1FFF#16).toNat < 0x2000 ∧ 0x4018 ≤ (0x4018#16).toNat ∧ State.reset.env = [] ∧
    let ws : PeripheralAction := [⟨.ppu 7, 0x01#8⟩, ⟨.ppu 7, 0x02#8⟩, ⟨.apu 23, 0x03#8⟩]
    ({ State.reset with env := [ws] } : State).gap.ppu = [(7, 0x02#8)] ∧
    ({ State.reset with env := [ws] } : State).gap.apu = [(23, 0x03#8)] ∧
    lastWrite ws (.ppu 7) = some 0x02#8 ∧ lastWrite ws (.ppu 0) = none := by
  decide

/-- The last PC that can hold three bytes, and the first that cannot. -/
theorem witness_PlacedWordRunsNext :
    (({ State.reset with pc := 0x4015#16 } : State).withFetchWord 16 0x05A9).pc = 0x4015#16 ∧
    (({ State.reset with pc := 0x4016#16 } : State).withFetchWord 16 0x05A9).pc = 0x0000#16 ∧
    ∀ k : Fin 3, route (0x4015#16 + BitVec.ofNat 16 k.val) ≠ route 0x4014#16 := by decide

theorem witness_EveryStepKeepsTheInvariant :
    (start 0x0600#16 [0xFE#8, 0x02#8, 0xF0#8] [(0x0310#16, 0x41#8)]).inv = true ∧
    ({ State.reset with remainingCycles := 6, p := 0xCF#8 } : State).inv = true ∧
    ∃ t, step { State.reset with remainingCycles := 6, p := 0xCF#8 } = .next t :=
  ⟨by decide, by decide, _, rfl⟩

theorem witness_ResetHasTheInvariant :
    Memory.wf 2048 [(0x7FF, 0x01#8)] = true ∧ Memory.wf 8 [(7, 0xFF#8)] = true ∧ Memory.wf 24 [(23, 0xFF#8)] = true := by decide

end Sys2Proof.Tests
end

section
/-! The peripheral agent's gap (20_memory.md R65): what it does to a window element, and what lies outside its windows. -/

namespace Sys2Proof.Machine

open Sys2Proof.Claims

/-- The oldest write of a gap counts only as the old byte of the writes after it. -/
theorem getD_lastWrite_cons (w : WindowWrite) (ws : PeripheralAction) (e : WindowElem) (old : Byte) :
    (lastWrite (w :: ws) e).getD old = (lastWrite ws e).getD (if w.elem = e then w.value else old) := by
  by_cases h : w.elem = e
  · simp only [lastWrite, h, decide_true, List.filter_cons_of_pos, List.getLast?_cons, if_true]
    cases (ws.filter fun w => decide (w.elem = e)).getLast? <;> rfl
  · simp [lastWrite, h]

/-- If `f` reads a byte of the state that a single write changes exactly when it names the element `e`, then after all the writes of a gap that byte is the last
one written to `e`, or else the old one. -/
theorem State.windowWrites_lastWrite {f : State → Byte} {e : WindowElem}
    (hf : ∀ (s : State) (w : WindowWrite), f (s.windowWrite w) = if w.elem = e then w.value else f s) (s : State) (ws : PeripheralAction) :
    f (s.windowWrites ws) = (lastWrite ws e).getD (f s) := by
  induction ws generalizing s with
  | nil => rfl
  | cons w ws ih =>
    calc f ((s.windowWrite w).windowWrites ws)
        = (lastWrite ws e).getD (f (s.windowWrite w)) := ih (s.windowWrite w)
      _ = (lastWrite (w :: ws) e).getD (f s) := by rw [hf, getD_lastWrite_cons]

/-- With an action coming, the gap performs its writes and drops it from the schedule. -/
theorem State.gap_of_env_cons {s : State} {ws : PeripheralAction} {rest : List PeripheralAction} (h : s.env = ws :: rest) :
    s.gap = { s.windowWrites ws with env := rest } := by
  simp [State.gap, h]

/-- The gap changes the windows and the schedule and nothing else. -/
theorem State.gap_frame (s : State) : { s.gap with ppu := s.ppu, apu := s.apu, env := s.env } = s := by
  simp

/-- From 0x4018 up there is no storage (R55). -/
theorem route_of_ge {a : U16} (h : 0x4018 ≤ a.toNat) : route a = .openBus := by
  have h2 : ¬ a.toNat < 0x2000 := by omega
  have h4 : ¬ a.toNat < 0x4000 := by omega
  have h24 : ¬ a.toNat - 0x4000 < 24 := by omega
  simp [route, h2, h4, h24]

theorem State.read_of_ge {a : U16} (s : State) (h : 0x4018 ≤ a.toNat) : s.read a = Config.openBus := by
  simp [State.read, route_of_ge h]

/-- The gap cannot be seen outside the windows: below them lies RAM, above them the open bus. -/
theorem State.read_gap_of_outside_windows (s : State) {a : U16} (h : a.toNat < 0x2000 ∨ 0x4018 ≤ a.toNat) :
    s.gap.read a = s.read a := by
  obtain hRam | hOpen := h
  · exact State.read_congr_ram (State.gap_ram s) hRam
  · rw [State.read_of_ge _ hOpen, State.read_of_ge _ hOpen]

end Sys2Proof.Machine

namespace Sys2Proof.Proofs

open Sys2Proof Sys2Proof.Machine Sys2Proof.Claims

/-- Settles O54: the frame of the gap, and for a window element the induction over the writes of the action. -/
theorem peripheralGapWritesOnlyWindows : Obligations.PeripheralGapWritesOnlyWindows := by
  intro s
  refine ⟨s.gap_frame, fun _ => s.read_gap_of_outside_windows, s.gap_of_env_nil, fun ws rest henv => ?_⟩
  rw [State.gap_of_env_cons henv]
  refine ⟨rfl, fun i => ?_, fun i => ?_⟩
  · exact State.windowWrites_lastWrite (f := fun t => Memory.read t.ppu i.val) (fun t w => t.read_windowWrite_ppu w i) s ws
  · exact State.windowWrites_lastWrite (f := fun t => Memory.read t.apu i.val) (fun t w => t.read_windowWrite_apu w i) s ws

end Sys2Proof.Proofs
end

section
/-! Canonical arrays (10_state.md R36, log 13): the list is determined by the bytes it reads as. -/

namespace Sys2Proof.Machine

theorem Memory.wf_cons_iff {size k : Nat} {v : Byte} {m : Memory} :
    Memory.wf size ((k, v) :: m) = true ↔
      k < size ∧ v ≠ Config.unlistedByte ∧ Memory.startsAbove k m = true ∧ Memory.wf size m = true := by
  simp [Memory.wf, and_assoc]

@[simp] theorem Memory.read_cons_self (k : Nat) (v : Byte) (m : Memory) : Memory.read ((k, v) :: m) k = v := by
  simp [Memory.read]

/-- Behind its first element an array reads as its tail does. -/
theorem Memory.read_cons_of_lt {k i : Nat} (h : k < i) (v : Byte) (m : Memory) :
    Memory.read ((k, v) :: m) i = Memory.read m i := by
  simp [Memory.read, show k ≠ i by omega, show ¬ i < k by omega]

/-- An array that reads like one whose first element is `k` lists `k` or an element before it: the byte there is not the unlisted one. -/
theorem Memory.not_startsAbove_of_read_eq {size k : Nat} {v : Byte} {m n : Memory} (hm : Memory.wf size ((k, v) :: m) = true)
    (hread : ∀ i, Memory.read ((k, v) :: m) i = Memory.read n i) : ¬ Memory.startsAbove k n = true := by
  intro hn
  obtain ⟨_, hv, _⟩ := Memory.wf_cons_iff.mp hm
  apply hv
  rw [← Memory.read_cons_self k v m, hread k]
  exact Memory.read_of_startsAbove hn le_rfl

/-- Two arrays that read alike behind the same first element have tails that read alike. -/
theorem Memory.read_tail_eq {k : Nat} {v w : Byte} {m n : Memory} (hm : Memory.startsAbove k m = true)
    (hn : Memory.startsAbove k n = true) (hread : ∀ i, Memory.read ((k, v) :: m) i = Memory.read ((k, w) :: n) i) (i : Nat) :
    Memory.read m i = Memory.read n i := by
  obtain hi | hi := le_or_gt i k
  · rw [Memory.read_of_startsAbove hm hi, Memory.read_of_startsAbove hn hi]
  · rw [← Memory.read_cons_of_lt hi v m, hread i, Memory.read_cons_of_lt hi]

theorem Memory.eq_of_read_eq {size : Nat} {m n : Memory} (hm : Memory.wf size m = true) (hn : Memory.wf size n = true)
    (hread : ∀ i, Memory.read m i = Memory.read n i) : m = n := by
  induction m generalizing n with
  | nil =>
    cases n with
    | nil => rfl
    | cons d n => exact absurd rfl (Memory.not_startsAbove_of_read_eq hn fun i => (hread i).symm)
  | cons c m ih =>
    cases n with
    | nil => exact absurd rfl (Memory.not_startsAbove_of_read_eq hm hread)
    | cons d n =>
      obtain ⟨k, v⟩ := c
      obtain ⟨l, w⟩ := d
      have hkl : ¬ k < l := by
        simpa [Memory.startsAbove] using Memory.not_startsAbove_of_read_eq hm hread
      have hlk : ¬ l < k := by
        simpa [Memory.startsAbove] using Memory.not_startsAbove_of_read_eq hn fun i => (hread i).symm
      obtain rfl : k = l := by omega
      obtain rfl : v = w := by simpa using hread k
      obtain ⟨_, _, hm_above, hm_tail⟩ := Memory.wf_cons_iff.mp hm
      obtain ⟨_, _, hn_above, hn_tail⟩ := Memory.wf_cons_iff.mp hn
      rw [ih hm_tail hn_tail (Memory.read_tail_eq hm_above hn_above hread)]

end Sys2Proof.Machine

namespace Sys2Proof.Proofs

open Sys2Proof Sys2Proof.Machine

/-- Settles O12, by induction on the first list: equal reads force equal first elements, and then equal reads of the tails. -/
theorem canonicalArraysReadingAlikeAreEqual : Obligations.CanonicalArraysReadingAlikeAreEqual :=
  fun _ _ _ hm hn hread => Memory.eq_of_read_eq hm hn hread

end Sys2Proof.Proofs
end

section
/-! The state after reset (10_state.md R37). -/

namespace Sys2Proof.Machine

/-- A launch has no owed cycles and P zero, so of the invariant the arrays' canonical form alone is left. -/
theorem launch_inv (ram ppu apu : Memory) (entry : U16) (env : List PeripheralAction) :
    (State.launch ram ppu apu entry env).inv = (State.launch ram ppu apu entry env).memoryWf := by
  simp [State.inv, State.launch]

end Sys2Proof.Machine

namespace Sys2Proof.Proofs

open Sys2Proof Sys2Proof.Machine

/-- Settles O57: `State.reset` is the launch with empty arrays. -/
theorem resetHasTheInvariant : Obligations.ResetHasTheInvariant := by
  refine ⟨(launch_inv ..).trans reset_memoryWf, fun ram ppu apu entry env hram hppu hapu => ?_⟩
  rw [launch_inv]
  exact (State.memoryWf_iff _).mpr ⟨hram, hppu, hapu⟩

/-- Settles O58: the fields of `State.launch`. -/
theorem resetRegisterValues : Obligations.ResetRegisterValues :=
  ⟨rfl, rfl, fun _ _ _ _ _ => ⟨rfl, rfl, rfl, rfl, rfl, rfl, rfl, rfl, rfl, rfl⟩⟩

end Sys2Proof.Proofs
end

section
/-! The flag setters as equations bit by bit (10_state.md R28 to R30), and the hard-wired bits beside the flags (R32). -/

namespace Sys2Proof.Machine

theorem getLsbD_setNegative (p v : Byte) (k : Nat) :
    (setNegative p v).getLsbD k = if k = 7 then v.getLsbD 7 else p.getLsbD k := by
  rw [getLsbD_seven]
  exact getLsbD_setFlag p .n _ k

theorem getLsbD_setZero (p v : Byte) (k : Nat) :
    (setZero p v).getLsbD k = if k = 1 then decide (v = 0) else p.getLsbD k :=
  getLsbD_setFlag p .z _ k

theorem getLsbD_setCarry (p : Byte) (b : Bool) (k : Nat) :
    (setCarry p b).getLsbD k = if k = 0 then b else p.getLsbD k :=
  getLsbD_setFlag p .c b k

theorem getLsbD_setOverflow (p : Byte) (b : Bool) (k : Nat) :
    (setOverflow p b).getLsbD k = if k = 6 then b else p.getLsbD k :=
  getLsbD_setFlag p .v b k

/-- A byte is not both negative and zero. -/
theorem not_negative_and_zero_setNZ (p v : Byte) : ¬ ((setNZ p v).getLsbD 7 = true ∧ (setNZ p v).getLsbD 1 = true) := by
  rintro ⟨hneg, hzero⟩
  have hv : v = 0 := by simpa using hzero
  subst hv
  simp at hneg

/-- Setting the two hard-wired bits, as PHP does, shows no flag otherwise (R27, R32). -/
@[simp] theorem getLsbD_or_reserved (p : Byte) (f : Flag) : (p ||| 0x30#8).getLsbD f.bit = p.getLsbD f.bit := by
  cases f <;> simp [Flag.bit]

/-- Clearing the two hard-wired bits, as PLP and RTI do, changes no flag (R27, R32). -/
@[simp] theorem getLsbD_and_flags (v : Byte) (f : Flag) : (v &&& 0xCF#8).getLsbD f.bit = v.getLsbD f.bit := by
  cases f <;> simp [Flag.bit]

/-- The byte that PHP pushes is determined by the six flags. -/
theorem or_reserved_congr {p q : Byte} (h : ∀ f : Flag, q.getLsbD f.bit = p.getLsbD f.bit) : q ||| 0x30#8 = p ||| 0x30#8 := by
  apply BitVec.eq_of_getLsbD_eq
  intro k hk
  rw [BitVec.getLsbD_or, BitVec.getLsbD_or]
  have hbit : (0x30#8).getLsbD k = true ∨ ∃ f : Flag, k = f.bit := by
    interval_cases k
    · exact .inr ⟨.c, rfl⟩
    · exact .inr ⟨.z, rfl⟩
    · exact .inr ⟨.i, rfl⟩
    · exact .inr ⟨.d, rfl⟩
    · exact .inl rfl
    · exact .inl rfl
    · exact .inr ⟨.v, rfl⟩
    · exact .inr ⟨.n, rfl⟩
  obtain hres | ⟨f, rfl⟩ := hbit
  · simp [hres]
  · rw [h f]

end Sys2Proof.Machine

namespace Sys2Proof.Proofs

open Sys2Proof Sys2Proof.Machine

/-- Settles O13, from the equations of the setters. -/
theorem negativeAndZeroSetters : Obligations.NegativeAndZeroSetters :=
  fun p v k => ⟨getLsbD_setNegative p v k, getLsbD_seven v, getLsbD_setZero p v k, rfl, not_negative_and_zero_setNZ p v⟩

end Sys2Proof.Proofs
end

section
/-! The bits of P that a row of the flag-write table names (10_state.md R33), and what the two flag computations do to the others. -/

namespace Sys2Proof.Machine

theorem getLsbD_nzRow (k : Nat) : (0b10000010#8).getLsbD k = true ↔ k = 1 ∨ k = 7 := by
  by_cases hk : k < 8
  · interval_cases k <;> decide
  · rw [BitVec.getLsbD_of_ge _ k (Nat.le_of_not_lt hk)]
    simp only [Bool.false_eq_true, false_iff]
    omega

theorem getLsbD_arithRow (k : Nat) : (0b11000011#8).getLsbD k = true ↔ k = 0 ∨ k = 1 ∨ k = 6 ∨ k = 7 := by
  by_cases hk : k < 8
  · interval_cases k <;> decide
  · rw [BitVec.getLsbD_of_ge _ k (Nat.le_of_not_lt hk)]
    simp only [Bool.false_eq_true, false_iff]
    omega

theorem getLsbD_wholeRow (k : Nat) : (0b11111111#8).getLsbD k = decide (k < 8) :=
  BitVec.getLsbD_allOnes

/-- Outside its row `SetNZ` keeps P, … -/
theorem setNZ_kept {k : Nat} (h : (0b10000010#8).getLsbD k = false) (p v : Byte) : (setNZ p v).getLsbD k = p.getLsbD k := by
  have hk : ¬ (k = 1 ∨ k = 7) := by simp [← getLsbD_nzRow, h]
  simp [show k ≠ 1 by omega, show k ≠ 7 by omega]

/-- … and inside it the old P does not show. -/
theorem setNZ_written {k : Nat} (h : (0b10000010#8).getLsbD k = true) (p q v : Byte) :
    (setNZ p v).getLsbD k = (setNZ q v).getLsbD k := by
  obtain rfl | rfl := (getLsbD_nzRow k).mp h <;> simp

/-- Outside their row the flags of an addition keep P, … -/
theorem addFlags_kept {k : Nat} (h : (0b11000011#8).getLsbD k = false) (p a n : Byte) (c : Bool) :
    (addFlags p a n c).getLsbD k = p.getLsbD k := by
  have hk : ¬ (k = 0 ∨ k = 1 ∨ k = 6 ∨ k = 7) := by simp [← getLsbD_arithRow, h]
  simp [getLsbD_addFlags, show k ≠ 0 by omega, show k ≠ 1 by omega, show k ≠ 6 by omega, show k ≠ 7 by omega]

/-- … and inside it the old P does not show but for the carry that was added. -/
theorem addFlags_written {k : Nat} (h : (0b11000011#8).getLsbD k = true) (p q a n : Byte) (c : Bool) :
    (addFlags p a n c).getLsbD k = (addFlags q a n c).getLsbD k := by
  rw [getLsbD_addFlags, getLsbD_addFlags]
  obtain rfl | rfl | rfl | rfl := (getLsbD_arithRow k).mp h <;> simp

end Sys2Proof.Machine
end

section
/-! The rules of the meanings' operations: what each leaves in P, in PC, in a register and in the peripheral agent's schedule. -/

namespace Sys2Proof.Machine

@[simp] theorem State.setReg_p (s : State) (r : Reg) (v : Byte) : (s.setReg r v).p = s.p := by cases r <;> rfl
@[simp] theorem State.setReg_pc (s : State) (r : Reg) (v : Byte) : (s.setReg r v).pc = s.pc := by cases r <;> rfl
@[simp] theorem State.setReg_env (s : State) (r : Reg) (v : Byte) : (s.setReg r v).env = s.env := by cases r <;> rfl

/-! ## P -/

@[simp] theorem load_p (r : Reg) (o : Operand) (base : Nat) (s : State) : (load r o base s).p = setNZ s.p (operandValue o s) := by
  simp [load]
@[simp] theorem store_p (r : Reg) (o : Operand) (base : Nat) (s : State) : (store r o base s).p = s.p := by
  simp [store]
@[simp] theorem transfer_p (src dst : Reg) (s : State) : (transfer src dst s).p = setNZ s.p (s.reg src) := by
  simp [transfer]
@[simp] theorem modifyMemory_p (f : Byte → Byte) (o : Operand) (base : Nat) (s : State) :
    (modifyMemory f o base s).p = setNZ s.p (f (s.read (resolve o s).ea)) := by
  simp [modifyMemory]
@[simp] theorem modifyRegister_p (f : Byte → Byte) (r : Reg) (s : State) :
    (modifyRegister f r s).p = setNZ s.p (f (s.reg r)) := by
  simp [modifyRegister]
@[simp] theorem branch_p (c : Bool) (d : Byte) (s : State) : (branch c d s).p = s.p := by cases c <;> rfl
@[simp] theorem callSubroutine_p (target : U16) (base : Nat) (s : State) : (callSubroutine target base s).p = s.p := by
  simp [callSubroutine]

/-! ## PC -/

@[simp] theorem load_pc (r : Reg) (o : Operand) (base : Nat) (s : State) :
    (load r o base s).pc = s.pc + BitVec.ofNat 16 o.length := by
  simp [load]
@[simp] theorem store_pc (r : Reg) (o : Operand) (base : Nat) (s : State) :
    (store r o base s).pc = s.pc + BitVec.ofNat 16 o.length := by
  simp [store]
@[simp] theorem transfer_pc (src dst : Reg) (s : State) : (transfer src dst s).pc = s.pc + BitVec.ofNat 16 Operand.implied.length := by
  simp [transfer, Operand.length, Operand.mode]
@[simp] theorem transferToStack_pc (src : Reg) (s : State) :
    (transferToStack src s).pc = s.pc + BitVec.ofNat 16 Operand.implied.length := rfl
@[simp] theorem modifyMemory_pc (f : Byte → Byte) (o : Operand) (base : Nat) (s : State) :
    (modifyMemory f o base s).pc = s.pc + BitVec.ofNat 16 o.length := by
  simp [modifyMemory]
@[simp] theorem modifyRegister_pc (f : Byte → Byte) (r : Reg) (s : State) :
    (modifyRegister f r s).pc = s.pc + BitVec.ofNat 16 Operand.implied.length := by
  simp [modifyRegister, Operand.length, Operand.mode]

/-! ## Registers -/

@[simp] theorem State.reg_setNZ (s : State) (v : Byte) (q : Reg) : (s.setNZ v).reg q = s.reg q := by cases q <;> rfl
@[simp] theorem State.reg_setStatus (s : State) (v : Byte) (q : Reg) : (s.setStatus v).reg q = s.reg q := by cases q <;> rfl
@[simp] theorem State.reg_advance (s : State) (len cost : Nat) (q : Reg) : (s.advance len cost).reg q = s.reg q := by
  cases q <;> rfl
@[simp] theorem State.reg_jumpTo (s : State) (target : U16) (cost : Nat) (q : Reg) : (s.jumpTo target cost).reg q = s.reg q := by
  cases q <;> rfl
@[simp] theorem State.reg_write (s : State) (a : U16) (v : Byte) (q : Reg) : (s.write a v).reg q = s.reg q := by
  cases q <;> simp
theorem State.reg_push {q : Reg} (hq : q ≠ .s) (s : State) (v : Byte) : (s.push v).reg q = s.reg q := by
  cases q <;> simp_all
theorem State.reg_afterPull {q : Reg} (hq : q ≠ .s) (s : State) : s.afterPull.reg q = s.reg q := by
  cases q <;> simp_all

theorem load_reg {q r : Reg} (hq : q ≠ r) (o : Operand) (base : Nat) (s : State) : (load r o base s).reg q = s.reg q := by
  simp [load, State.reg_setReg, hq]
@[simp] theorem store_reg (r : Reg) (o : Operand) (base : Nat) (s : State) (q : Reg) : (store r o base s).reg q = s.reg q := by
  simp [store]
theorem transfer_reg {q dst : Reg} (hq : q ≠ dst) (src : Reg) (s : State) : (transfer src dst s).reg q = s.reg q := by
  simp [transfer, State.reg_setReg, hq]
theorem transferToStack_reg {q : Reg} (hq : q ≠ .s) (src : Reg) (s : State) : (transferToStack src s).reg q = s.reg q := by
  simp [transferToStack, State.reg_setReg, hq]
@[simp] theorem modifyMemory_reg (f : Byte → Byte) (o : Operand) (base : Nat) (s : State) (q : Reg) :
    (modifyMemory f o base s).reg q = s.reg q := by
  simp [modifyMemory]
theorem modifyRegister_reg {q r : Reg} (hq : q ≠ r) (f : Byte → Byte) (s : State) : (modifyRegister f r s).reg q = s.reg q := by
  simp [modifyRegister, State.reg_setReg, hq]
@[simp] theorem jump_reg (o : Operand) (base : Nat) (s : State) (q : Reg) : (jump o base s).reg q = s.reg q := by
  simp [jump]
@[simp] theorem branch_reg (c : Bool) (d : Byte) (s : State) (q : Reg) : (branch c d s).reg q = s.reg q := by
  cases c <;> cases q <;> rfl
theorem addToA_reg {q : Reg} (hq : q ≠ .a) (n : Byte) (o : Operand) (base : Nat) (s : State) :
    (addToA n o base s).reg q = s.reg q := by
  cases q <;> simp_all [addToA_eq, State.reg]
theorem callSubroutine_reg {q : Reg} (hq : q ≠ .s) (target : U16) (base : Nat) (s : State) :
    (callSubroutine target base s).reg q = s.reg q := by
  simp [callSubroutine, State.reg_push hq]
theorem returnFromSubroutine_reg {q : Reg} (hq : q ≠ .s) (base : Nat) (s : State) :
    (returnFromSubroutine base s).reg q = s.reg q := by
  simp [returnFromSubroutine, State.reg_afterPull hq]
theorem returnFromInterrupt_reg {q : Reg} (hq : q ≠ .s) (base : Nat) (s : State) :
    (returnFromInterrupt base s).reg q = s.reg q := by
  simp [returnFromInterrupt, State.reg_afterPull hq]

/-! ## The peripheral agent's schedule -/

@[simp] theorem branch_env (c : Bool) (d : Byte) (s : State) : (branch c d s).env = s.env := by cases c <;> rfl

end Sys2Proof.Machine
end

section
/-! What an instruction leaves alone, from its effect: bits of P, registers, the peripheral agent's schedule. -/

namespace Sys2Proof.Machine

/-- A property of every effect of an instruction on a state is one of its outcome. -/
theorem exec_of_effect {R : State → Prop} (i : Instr) (s : State)
    (h : ∀ base t, Effect base s i.mnemonic i.operand t → R t) : ∃ t, exec i s = .next t ∧ R t := by
  obtain ⟨base, hexec⟩ := exec_effect i
  obtain ⟨t, ht, heffect⟩ := hexec s
  exact ⟨t, ht, h base t heffect⟩

variable {base : Nat} {s t : State} {m : Mnemonic} {o : Option Operand}

/-- A bit of P that the flag-write table does not give the instruction keeps its value (R33). -/
theorem Effect.status_kept (h : Effect base s m o t) {k : Nat} (hk : (flagsWritten m).getLsbD k = false) :
    t.p.getLsbD k = s.p.getLsbD k := by
  cases h with
  | lda | ldx | ldy => rw [load_p]; exact setNZ_kept hk ..
  | tax | tay | tsx | txa | tya => rw [transfer_p]; exact setNZ_kept hk ..
  | inc | dec => rw [modifyMemory_p]; exact setNZ_kept hk ..
  | inx | iny | dex | dey => rw [modifyRegister_p]; exact setNZ_kept hk ..
  | pla => exact setNZ_kept hk ..
  | adc | sbc => exact addFlags_kept hk ..
  | plp | rti =>
    have hk8 : ¬ k < 8 := by simpa using (getLsbD_wholeRow k).symm.trans hk
    rw [BitVec.getLsbD_of_ge _ k (by omega), BitVec.getLsbD_of_ge _ k (by omega)]
  | sta | stx | sty => rw [store_p]
  | bcc | bcs | beq | bne | bmi | bpl | bvc | bvs => rw [branch_p]
  | pha | php => simp
  | jsr => rw [callSubroutine_p]
  | txs | jmp | rts | unmapped => rfl

/-- A flag that the table does not give the instruction keeps its value. -/
theorem Effect.flag_kept (h : Effect base s m o t) {f : Flag} (hf : (flagsWritten m).getLsbD f.bit = false) :
    t.flag f = s.flag f :=
  h.status_kept hf

theorem ne_of_writer {m : Mnemonic} {q r : Reg} (hr : m ∈ regWriters r) (hq : m ∉ regWriters q) : q ≠ r :=
  fun h => hq (h ▸ hr)

/-- A register keeps its value under an instruction that is not one of its writers (R21, R22, R23, R26). -/
theorem Effect.reg_kept (h : Effect base s m o t) {q : Reg} (hq : m ∉ regWriters q) : t.reg q = s.reg q := by
  cases h with
  | lda | ldx | ldy => exact load_reg (ne_of_writer (by decide) hq) ..
  | tax | tay | tsx | txa | tya => exact transfer_reg (ne_of_writer (by decide) hq) ..
  | txs => exact transferToStack_reg (ne_of_writer (by decide) hq) ..
  | inx | iny | dex | dey => exact modifyRegister_reg (ne_of_writer (by decide) hq) ..
  | adc | sbc => exact addToA_reg (ne_of_writer (by decide) hq) ..
  | pha | php => rw [State.reg_advance, State.reg_push (ne_of_writer (by decide) hq)]
  | pla =>
    have hA : q ≠ .a := ne_of_writer (by decide) hq
    have hS : q ≠ .s := ne_of_writer (by decide) hq
    simp [State.reg_setReg, hA, State.reg_afterPull hS]
  | plp => rw [State.reg_advance, State.reg_setStatus, State.reg_afterPull (ne_of_writer (by decide) hq)]
  | jsr => exact callSubroutine_reg (ne_of_writer (by decide) hq) ..
  | rts => exact returnFromSubroutine_reg (ne_of_writer (by decide) hq) ..
  | rti => exact returnFromInterrupt_reg (ne_of_writer (by decide) hq) ..
  | sta | stx | sty => rw [store_reg]
  | inc | dec => rw [modifyMemory_reg]
  | jmp => rw [jump_reg]
  | bcc | bcs | beq | bne | bmi | bpl | bvc | bvs => rw [branch_reg]
  | unmapped => rfl

/-- No instruction touches the peripheral agent's coming actions (log 2). -/
theorem Effect.env_kept (h : Effect base s m o t) : t.env = s.env := by
  cases h with
  | bcc | bcs | beq | bne | bmi | bpl | bvc | bvs => rw [branch_env]
  | unmapped => rfl
  | _ =>
    simp [load, store, transfer, transferToStack, modifyMemory, modifyRegister, jump, addToA, callSubroutine,
      returnFromSubroutine, returnFromInterrupt]

/-- Only ADC, SBC, PLP and RTI have C or V in their row of the table (R30, R33). -/
theorem flagsWritten_c_v {m : Mnemonic} (hm : m ∉ [Mnemonic.adc, .sbc, .plp, .rti]) :
    (flagsWritten m).getLsbD Flag.c.bit = false ∧ (flagsWritten m).getLsbD Flag.v.bit = false := by
  cases m with
  | adc | sbc | plp | rti => exact absurd (by decide) hm
  | _ => exact ⟨rfl, rfl⟩

/-- Only PLP and RTI have D or I in their row of the table (R31, R33). -/
theorem flagsWritten_d_i {m : Mnemonic} (hm : m ∉ [Mnemonic.plp, .rti]) :
    (flagsWritten m).getLsbD Flag.d.bit = false ∧ (flagsWritten m).getLsbD Flag.i.bit = false := by
  cases m with
  | plp | rti => exact absurd (by decide) hm
  | _ => exact ⟨rfl, rfl⟩

end Sys2Proof.Machine

namespace Sys2Proof.Proofs

open Sys2Proof Sys2Proof.Machine

/-- Settles O15, bit by bit: masked out are just the bits of the instruction's row. -/
theorem flagWriteTableIsComplete : Obligations.FlagWriteTableIsComplete := by
  refine fun i s => exec_of_effect i s fun base t h => BitVec.eq_of_getLsbD_eq fun k hk => ?_
  cases hbit : (flagsWritten i.mnemonic).getLsbD k with
  | true => simp [hbit]
  | false => rw [BitVec.getLsbD_and, BitVec.getLsbD_and, h.status_kept hbit]

/-- Settles O14: the setters' equations, and for C and V the flag-write table. -/
theorem carryAndOverflowSetters : Obligations.CarryAndOverflowSetters := by
  refine ⟨fun p b k => ⟨getLsbD_setCarry p b k, getLsbD_setOverflow p b k⟩, fun s => ⟨rfl, rfl, rfl, rfl⟩, fun i s => ?_⟩
  refine exec_of_effect i s fun base t h hm => ?_
  obtain ⟨hc, hv⟩ := flagsWritten_c_v hm
  exact ⟨h.flag_kept hc, h.flag_kept hv⟩

/-- Settles O43. -/
theorem registersChangeOnlyByTheirWriters : Obligations.RegistersChangeOnlyByTheirWriters :=
  fun i s => exec_of_effect i s fun _ _ h => ⟨fun _ hq => h.reg_kept hq, h.env_kept⟩

end Sys2Proof.Proofs
end

section
/-! The program counter after every instruction (10_state.md R25). -/

namespace Sys2Proof

theorem Instr.length_eq (i : Instr) : i.length = i.operand.elim 0 Operand.length := by
  unfold Instr.length
  cases i.operand <;> rfl

end Sys2Proof

namespace Sys2Proof.Machine

theorem transfersControl_eq_false {i : Instr} {s : State} (h : transfersControl i s = false) :
    i.mnemonic ∉ [Mnemonic.jmp, .jsr, .rts, .rti] ∧ branchTaken s i.mnemonic = false := by
  simpa [transfersControl] using h

/-- Only a branch can be a taken branch (44_jump_branch.md R161). -/
theorem costClass_of_branchTaken {m : Mnemonic} {s : State} (h : branchTaken s m = true) : costClass m = some .branch := by
  cases m with
  | bcc | bcs | beq | bne | bmi | bpl | bvc | bvs => rfl
  | _ => cases h

variable {base : Nat} {s t : State} {m : Mnemonic}

/-- The eight branches are one operation, on the condition `branchTaken`. -/
theorem Effect.of_branch {o : Option Operand} (h : Effect base s m o t) (hm : costClass m = some .branch) :
    ∃ d, o = some (.relative d) ∧ t = branch (branchTaken s m) d s := by
  cases h with
  | bcc d | bcs d | beq d | bne d | bmi d | bpl d | bvc d | bvs d => exact ⟨d, rfl, rfl⟩
  | _ => cases hm

/-- Without a control transfer PC is past the instruction (R25). -/
theorem Effect.pc_of_no_transfer {o : Option Operand} (h : Effect base s m o t) (hm : m ∉ [Mnemonic.jmp, .jsr, .rts, .rti])
    (hb : branchTaken s m = false) : t.pc = s.pc + BitVec.ofNat 16 (o.elim 0 Operand.length) := by
  cases h with
  | lda | ldx | ldy => exact load_pc ..
  | sta | stx | sty => exact store_pc ..
  | tax | tay | tsx | txa | tya => exact transfer_pc ..
  | txs => exact transferToStack_pc ..
  | inc | dec => exact modifyMemory_pc ..
  | inx | iny | dex | dey => exact modifyRegister_pc ..
  | adc | sbc => rfl
  | pha | php => rw [State.advance_pc, State.push_pc]; rfl
  | pla | plp => rfl
  | unmapped => simp
  | jmp | jsr | rts | rti => exact absurd (by decide) hm
  | bcc | bcs | beq | bne | bmi | bpl | bvc | bvs =>
    rw [branchTaken] at hb
    rw [hb, branch_not_taken]
    rfl

/-- After JMP, JSR and a taken branch PC is the effective address (R25). -/
theorem Effect.pc_of_transfer {o : Operand} (h : Effect base s m (some o) t)
    (hm : m = .jmp ∨ m = .jsr ∨ branchTaken s m = true) : t.pc = (resolve o s).ea := by
  obtain rfl | rfl | htaken := hm
  · cases h; rfl
  · cases h; rfl
  · obtain ⟨d, ho, rfl⟩ := h.of_branch (costClass_of_branchTaken htaken)
    obtain rfl := Option.some.inj ho
    rw [htaken, branch_taken]

/-- RTS continues one past the word it pulls, low byte first (46_stack_subroutine.md R197). -/
theorem Effect.pc_rts {o : Option Operand} (h : Effect base s .rts o t) :
    t.pc = word (s.read (stackAddress (s.s + 2))) (s.read (stackAddress (s.s + 1))) + 1 := by
  cases h
  rw [returnFromSubroutine_eq, BitVec.add_assoc]
  rfl

/-- RTI continues at the word it pulls after P (R198). -/
theorem Effect.pc_rti {o : Option Operand} (h : Effect base s .rti o t) :
    t.pc = word (s.read (stackAddress (s.s + 3))) (s.read (stackAddress (s.s + 2))) := by
  cases h
  rw [returnFromInterrupt_eq, BitVec.add_assoc s.s 1 1, BitVec.add_assoc]
  rfl

end Sys2Proof.Machine

namespace Sys2Proof.Proofs

open Sys2Proof Sys2Proof.Machine

/-- Settles O45, from the PC of each kind of effect. -/
theorem programCounterAdvancesByLength : Obligations.ProgramCounterAdvancesByLength := by
  refine fun i s => exec_of_effect i s fun base t h => ⟨fun hno => ?_, fun o ho hm => ?_, fun hm => ?_, fun hm => ?_⟩
  · obtain ⟨hm, hb⟩ := transfersControl_eq_false hno
    rw [Instr.length_eq]
    exact h.pc_of_no_transfer hm hb
  · rw [ho] at h
    exact h.pc_of_transfer hm
  · rw [hm] at h
    exact h.pc_rts
  · rw [hm] at h
    exact h.pc_rti

end Sys2Proof.Proofs
end

section
/-! Noninterference of A and P: what an instruction does is determined by what it reads of them (10_state.md R21, R34).
The state with A and P replaced is `State.withAP`; one rule for each operation says how it acts there, and `Effect.sameWrites` puts
them together for every instruction. -/

namespace Sys2Proof.Machine

/-- The state with other contents of A and P. -/
def State.withAP (s : State) (v q : Byte) : State := { s with a := v, p := q }

/-! ## Reading and updating a state with A and P replaced -/

variable (s : State) (v q : Byte)

@[simp] theorem State.withAP_p : (s.withAP v q).p = q := rfl

@[simp] theorem State.flag_withAP (f : Flag) : (s.withAP v q).flag f = q.getLsbD f.bit := rfl

@[simp] theorem resolve_withAP (o : Operand) : resolve o (s.withAP v q) = resolve o s :=
  (resolve_withA o { s with p := q } v).trans (resolve_withP o s q)

@[simp] theorem operandValue_withAP (o : Operand) : operandValue o (s.withAP v q) = operandValue o s :=
  (operandValue_withA o { s with p := q } v).trans (operandValue_withP o s q)

@[simp] theorem pageCross_withAP (o : Operand) : pageCross o (s.withAP v q) = pageCross o s := by
  simp [pageCross]

@[simp] theorem State.read_withAP (a : U16) : (s.withAP v q).read a = s.read a := rfl

@[simp] theorem State.write_withAP (a : U16) (u : Byte) : (s.withAP v q).write a u = (s.write a u).withAP v q := by
  have hp := State.write_withP s q a u
  have ha := State.write_withA { s with p := q } v a u
  rw [hp] at ha
  exact ha

@[simp] theorem State.push_withAP (u : Byte) : (s.withAP v q).push u = (s.push u).withAP v q := by
  show ({ (s.withAP v q).write (stackAddress s.s) u with s := s.s - 1 } : State) = _
  rw [State.write_withAP]
  rfl

@[simp] theorem State.setReg_withAP (r : Reg) (u : Byte) :
    (s.withAP v q).setReg r u = (s.setReg r u).withAP (if r = .a then u else v) q := by
  cases r <;> rfl

@[simp] theorem State.setNZ_withAP (u : Byte) : (s.withAP v q).setNZ u = (s.setNZ u).withAP v (Sys2Proof.Machine.setNZ q u) := rfl

@[simp] theorem State.advance_withAP (len cost : Nat) : (s.withAP v q).advance len cost = (s.advance len cost).withAP v q := rfl

@[simp] theorem State.jumpTo_withAP (target : U16) (cost : Nat) :
    (s.withAP v q).jumpTo target cost = (s.jumpTo target cost).withAP v q := rfl

/-! ## The operations on a state with A and P replaced -/

theorem load_withAP (r : Reg) (o : Operand) (base : Nat) :
    load r o base (s.withAP v q) =
      (load r o base s).withAP (if r = .a then operandValue o s else v) (setNZ q (operandValue o s)) := by
  simp [load]

variable {s v q}

theorem store_withAP {r : Reg} (hr : (s.withAP v q).reg r = s.reg r) (o : Operand) (base : Nat) :
    store r o base (s.withAP v q) = (store r o base s).withAP v q := by
  simp [store, hr]

theorem transfer_withAP {src : Reg} (hsrc : (s.withAP v q).reg src = s.reg src) (dst : Reg) :
    transfer src dst (s.withAP v q) =
      (transfer src dst s).withAP (if dst = .a then s.reg src else v) (setNZ q (s.reg src)) := by
  simp [transfer, hsrc]

theorem modifyMemory_withAP (f : Byte → Byte) (o : Operand) (base : Nat) :
    modifyMemory f o base (s.withAP v q) =
      (modifyMemory f o base s).withAP v (setNZ q (f (s.read (resolve o s).ea))) := by
  simp [modifyMemory]

theorem modifyRegister_withAP {r : Reg} (hr : r ≠ .a) (hread : (s.withAP v q).reg r = s.reg r) (f : Byte → Byte) :
    modifyRegister f r (s.withAP v q) = (modifyRegister f r s).withAP v (setNZ q (f (s.reg r))) := by
  simp [modifyRegister, hr, hread]

theorem jump_withAP (o : Operand) (base : Nat) : jump o base (s.withAP v q) = (jump o base s).withAP v q := by
  simp [jump]

theorem branch_withAP (c : Bool) (d : Byte) : branch c d (s.withAP v q) = (branch c d s).withAP v q := by
  cases c <;> rfl

theorem addToA_withAP (ha : v = s.a) (hc : (s.withAP v q).flag .c = s.flag .c) (n : Byte) (o : Operand) (base : Nat) :
    addToA n o base (s.withAP v q) =
      (addToA n o base s).withAP (addResult s.a n (s.flag .c)) (addFlags q s.a n (s.flag .c)) := by
  subst ha
  rw [addToA_eq, addToA_eq, hc, pageCross_withAP]
  rfl

theorem callSubroutine_withAP (target : U16) (base : Nat) :
    callSubroutine target base (s.withAP v q) = (callSubroutine target base s).withAP v q := by
  show ((((s.withAP v q).push (hiByte (s.pc + 2))).push (loByte (s.pc + 2))).jumpTo target base) = _
  simp [callSubroutine]

/-! ## Every instruction -/

/-- What an instruction reads of A and P is in `s.withAP v q` as it is in `s` (R21, R34). -/
structure ReadsAlike (m : Mnemonic) (s : State) (v q : Byte) : Prop where
  acc : m ∈ accumulatorReaders → v = s.a
  flags : ∀ f, m ∈ flagReaders f → (s.withAP v q).flag f = s.flag f

/-- Two after-states of an instruction differ at most in A and P, and there in nothing that it writes (R21, R33). -/
structure SameWrites (m : Mnemonic) (t t' : State) : Prop where
  rest : t' = t.withAP t'.a t'.p
  acc : m ∈ regWriters .a → t'.a = t.a
  status : ∀ k, (flagsWritten m).getLsbD k = true → t'.p.getLsbD k = t.p.getLsbD k

variable {base : Nat} {m : Mnemonic} {o : Option Operand} {t t' : State}

theorem SameWrites.of_eq {v' q' : Byte} (ht' : t' = t.withAP v' q') (ha : m ∈ regWriters .a → v' = t.a)
    (hp : ∀ k, (flagsWritten m).getLsbD k = true → q'.getLsbD k = t.p.getLsbD k) : SameWrites m t t' := by
  subst ht'
  exact ⟨rfl, ha, hp⟩

/-- The shape of an instruction that writes neither A nor P. -/
theorem SameWrites.of_none (ht' : t' = t.withAP v q) (ha : m ∉ regWriters .a) (hp : flagsWritten m = 0#8) : SameWrites m t t' :=
  .of_eq ht' (fun h => absurd h ha) fun k hk => by simp [hp] at hk

/-- The shape of an instruction that writes N and Z from a byte, and not A. -/
theorem SameWrites.of_nz {u r : Byte} (ht' : t' = t.withAP v (setNZ q u)) (ha : m ∉ regWriters .a)
    (hp : flagsWritten m = 0b10000010#8) (ht : t.p = setNZ r u) : SameWrites m t t' :=
  .of_eq ht' (fun h => absurd h ha) fun k hk => by rw [ht]; exact setNZ_written (hp ▸ hk) ..

/-- The shape of an instruction that writes a byte to A, and N and Z from it. -/
theorem SameWrites.of_a_nz {u r : Byte} (ht' : t' = t.withAP u (setNZ q u)) (ha : t.a = u)
    (hp : flagsWritten m = 0b10000010#8) (ht : t.p = setNZ r u) : SameWrites m t t' :=
  .of_eq ht' (fun _ => ha.symm) fun k hk => by rw [ht]; exact setNZ_written (hp ▸ hk) ..

/-- An instruction that finds what it reads of A and P alike does the same. -/
theorem Effect.sameWrites (hread : ReadsAlike m s v q) (h : Effect base s m o t) (h' : Effect base (s.withAP v q) m o t') :
    SameWrites m t t' := by
  obtain ⟨hacc, hflags⟩ := hread
  cases h with
  | lda => cases h'; exact .of_a_nz (load_withAP ..) rfl rfl (load_p ..)
  | ldx | ldy => cases h'; exact .of_nz (load_withAP ..) (by decide) rfl (load_p ..)
  | sta => cases h'; exact .of_none (store_withAP (by exact hacc (by decide)) ..) (by decide) rfl
  | stx | sty => cases h'; exact .of_none (store_withAP (by rfl) ..) (by decide) rfl
  | tax | tay => cases h'; exact .of_nz (transfer_withAP (by exact hacc (by decide)) _) (by decide) rfl (transfer_p ..)
  | tsx => cases h'; exact .of_nz (transfer_withAP (by rfl) _) (by decide) rfl (transfer_p ..)
  | txa | tya => cases h'; exact .of_a_nz (transfer_withAP (by rfl) _) rfl rfl (transfer_p ..)
  | txs => cases h'; exact .of_none rfl (by decide) rfl
  | inc | dec => cases h'; exact .of_nz (modifyMemory_withAP ..) (by decide) rfl (modifyMemory_p ..)
  | inx | iny | dex | dey =>
    cases h'; exact .of_nz (modifyRegister_withAP (by decide) (by rfl) _) (by decide) rfl (modifyRegister_p ..)
  | jmp => cases h'; exact .of_none (jump_withAP ..) (by decide) rfl
  | bcc | bcs | beq | bne | bmi | bpl | bvc | bvs =>
    cases h'
    rw [hflags _ (by decide)]
    exact .of_none (branch_withAP ..) (by decide) rfl
  | adc | sbc =>
    cases h'
    rw [operandValue_withAP]
    exact .of_eq (addToA_withAP (hacc (by decide)) (hflags .c (by decide)) ..) (fun _ => rfl) fun k hk => addFlags_written hk ..
  | pha =>
    cases h'
    obtain rfl := hacc (by decide)
    exact .of_none (congrArg (State.advance · 1 3) (State.push_withAP ..)) (by decide) rfl
  | php =>
    cases h'
    have hbyte : q ||| 0x30#8 = s.p ||| 0x30#8 := or_reserved_congr fun f => hflags f (by cases f <;> decide)
    rw [State.withAP_p, hbyte]
    exact .of_none (congrArg (State.advance · 1 3) (State.push_withAP ..)) (by decide) rfl
  | pla => cases h'; exact .of_a_nz rfl rfl rfl rfl
  | plp | rti => cases h'; exact .of_eq rfl (fun h => absurd h (by decide)) fun _ _ => rfl
  | jsr => cases h'; exact .of_none (callSubroutine_withAP ..) (by decide) rfl
  | rts | unmapped => cases h'; exact .of_none rfl (by decide) rfl

end Sys2Proof.Machine
end

section
/-! What follows for A alone and for P alone, and that a reader of a flag does depend on it (10_state.md R21, R31, R34). -/

namespace Sys2Proof.Machine

/-- A relation between the effects of an instruction on two states is one between its outcomes. -/
theorem exec_of_effects {R : State → State → Prop} (i : Instr) (s s' : State)
    (h : ∀ base t t', Effect base s i.mnemonic i.operand t → Effect base s' i.mnemonic i.operand t' → R t t') :
    ∃ t t', exec i s = .next t ∧ exec i s' = .next t' ∧ R t t' := by
  obtain ⟨base, hexec⟩ := exec_effect i
  obtain ⟨t, ht, heffect⟩ := hexec s
  obtain ⟨t', ht', heffect'⟩ := hexec s'
  exact ⟨t, t', ht, ht', h base t t' heffect heffect'⟩

variable {base : Nat} {s t t' : State} {m : Mnemonic} {o : Option Operand} {v q : Byte}

/-- A after an instruction that finds what it reads alike: the same where it writes A, else as it was. -/
theorem Effect.a_of_readsAlike (hread : ReadsAlike m s v q) (h : Effect base s m o t) (h' : Effect base (s.withAP v q) m o t') :
    t'.a = if m ∈ regWriters .a then t.a else v := by
  split
  · next hm => exact (h.sameWrites hread h').acc hm
  · next hm => exact h'.reg_kept (q := .a) hm

theorem Effect.a_eq_of_readsAlike (hread : ReadsAlike m s s.a q) (h : Effect base s m o t)
    (h' : Effect base (s.withAP s.a q) m o t') : t'.a = t.a := by
  rw [h.a_of_readsAlike hread h']
  split
  · rfl
  · next hm => exact (h.reg_kept (q := .a) hm).symm

/-- P after such an instruction, bit by bit: the same where the flag-write table has the bit, else as it was. -/
theorem Effect.status_of_readsAlike (hread : ReadsAlike m s v q) (h : Effect base s m o t)
    (h' : Effect base (s.withAP v q) m o t') (k : Nat) :
    t'.p.getLsbD k = if (flagsWritten m).getLsbD k then t.p.getLsbD k else q.getLsbD k := by
  split
  · next hk => exact (h.sameWrites hread h').status k hk
  · next hk => exact h'.status_kept (Bool.eq_false_iff.mpr hk)

theorem Effect.status_eq_of_readsAlike (hread : ReadsAlike m s v q) (h : Effect base s m o t)
    (h' : Effect base (s.withAP v q) m o t') {k : Nat} (hk : q.getLsbD k = s.p.getLsbD k) : t'.p.getLsbD k = t.p.getLsbD k := by
  rw [h.status_of_readsAlike hread h' k, hk]
  split
  · rfl
  · next hkept => exact (h.status_kept (Bool.eq_false_iff.mpr hkept)).symm

/-- An instruction that does not read A does the same whatever A holds, but for A itself. -/
theorem Effect.eq_of_other_a (hm : m ∉ accumulatorReaders) (h : Effect base s m o t)
    (h' : Effect base { s with a := v } m o t') :
    { t' with a := t.a } = t ∧ t'.a = if m ∈ regWriters .a then t.a else v := by
  have hread : ReadsAlike m s v s.p := ⟨fun hr => absurd hr hm, fun _ _ => rfl⟩
  have hstatus : t'.p = t.p := BitVec.eq_of_getLsbD_eq fun _ _ => h.status_eq_of_readsAlike hread h' rfl
  refine ⟨?_, h.a_of_readsAlike hread h'⟩
  rw [(h.sameWrites hread h').rest, hstatus]
  rfl

/-- Of the writers of A those that do not read it are LDA, TXA, TYA and PLA (R21). -/
theorem mem_regWriters_a_iff (hm : m ∉ accumulatorReaders) :
    m ∈ regWriters .a ↔ m ∈ [Mnemonic.lda, .txa, .tya, .pla] := by
  simp_all [accumulatorReaders, regWriters]

/-- An instruction that reads no flag in which P and `q` differ does the same on both, but for P itself. -/
theorem Effect.eq_of_other_p (hread : ReadsAlike m s s.a q) (h : Effect base s m o t) (h' : Effect base { s with p := q } m o t') :
    { t' with p := t.p } = t := by
  rw [(h.sameWrites hread h').rest, h.a_eq_of_readsAlike hread h']
  rfl

/-- An instruction that does not read a flag finds what it reads alike whatever the flag holds. -/
theorem readsAlike_setFlag {f : Flag} (hm : m ∉ flagReaders f) (s : State) (b : Bool) :
    ReadsAlike m s s.a (setFlag s.p f b) where
  acc _ := rfl
  flags g hg := by
    have hgf : g ≠ f := fun h => hm (h ▸ hg)
    rw [State.flag_withAP, flag_setFlag, if_neg hgf]
    rfl

/-! ## D and I (R31) -/

/-- PHP alone reads D or I. -/
theorem eq_php_of_reads_d_i {f : Flag} (hf : f = .d ∨ f = .i) (hm : m ∈ flagReaders f) : m = .php := by
  obtain rfl | rfl := hf <;> exact List.mem_singleton.mp hm

/-- Assigning D and I changes no other flag. -/
theorem flag_setFlag_d_i {f : Flag} (hd : f ≠ .d) (hi : f ≠ .i) (p : Byte) (d n : Bool) :
    (setFlag (setFlag p .d d) .i n).getLsbD f.bit = p.getLsbD f.bit := by
  simp [hd, hi]

/-- Every instruction but PHP finds what it reads alike whatever D and I hold. -/
theorem readsAlike_setFlag_d_i (hm : m ≠ .php) (s : State) (d n : Bool) :
    ReadsAlike m s s.a (setFlag (setFlag s.p .d d) .i n) where
  acc _ := rfl
  flags _ hf := flag_setFlag_d_i (fun hd => hm (eq_php_of_reads_d_i (.inl hd) hf))
    (fun hi => hm (eq_php_of_reads_d_i (.inr hi) hf)) s.p d n

/-- PLP and RTI load every flag from the pulled byte (46_stack_subroutine.md R191, R195, R198). -/
theorem Effect.flag_pulled (hm : m = .plp ∨ m = .rti) (h : Effect base s m o t) (f : Flag) : t.flag f = s.pulled.getLsbD f.bit := by
  obtain rfl | rfl := hm <;> cases h <;> exact getLsbD_and_flags s.pulled f

/-- PHP pushes every flag at its bit (R190, R193). -/
theorem Effect.read_pushed_status (h : Effect base s .php o t) (f : Flag) :
    (t.read (stackAddress s.s)).getLsbD f.bit = s.flag f := by
  cases h
  have hread : (s.write (stackAddress s.s) (s.p ||| 0x30#8)).read (stackAddress s.s) = s.p ||| 0x30#8 :=
    State.read_write_same rfl (route_stackAddress_ne_openBus s.s)
  exact (congrArg (·.getLsbD f.bit) hread).trans (getLsbD_or_reserved s.p f)

/-! ## The readers of a flag (R34) -/

/-- The readers of a flag: PHP, for the carry the two additions, and the branches whose condition is the flag or its complement. -/
theorem flagReaders_cases {f : Flag} (hm : m ∈ flagReaders f) :
    m = .php ∨ (f = .c ∧ (m = .adc ∨ m = .sbc)) ∨
      (costClass m = some .branch ∧ ∃ b : Bool, ∀ s, branchTaken s m = (s.flag f ^^ b)) := by
  cases f <;> simp only [flagReaders, List.mem_cons, List.not_mem_nil, or_false] at hm
  case n | v | z => obtain rfl | rfl | rfl := hm; all_goals simp [costClass, branchTaken]
  case c => obtain rfl | rfl | rfl | rfl | rfl := hm; all_goals simp [costClass, branchTaken]
  case d | i => exact .inl hm

/-- A taken branch owes more cycles than one not taken, wherever it leads (47_dispatch.md R207). -/
theorem branch_remainingCycles_ne (d d' : Byte) (s s' : State) {c c' : Bool} (hc : c ≠ c') :
    (branch c d s).remainingCycles ≠ (branch c' d' s').remainingCycles := by
  cases c <;> cases c'
  case false.true =>
    rw [branch_not_taken, branch_taken]
    show 1 ≠ 3 + pageCross (.relative d') s' - 1
    omega
  case true.false =>
    rw [branch_not_taken, branch_taken]
    show 3 + pageCross (.relative d) s - 1 ≠ 1
    omega
  all_goals exact absurd rfl hc

/-- The carry changes every sum. -/
theorem addResult_carry_ne (a n : Byte) : addResult a n false ≠ addResult a n true := by
  intro h
  have := congrArg BitVec.toNat h
  simp only [addResult_toNat, Bool.toNat_false, Bool.toNat_true] at this
  omega

theorem addToA_carry_ne (n : Byte) (o : Operand) (base : Nat) (s : State) :
    (addToA n o base { s with p := setFlag s.p .c false }).a ≠ (addToA n o base { s with p := setFlag s.p .c true }).a := by
  simpa [addToA_eq, State.flag] using addResult_carry_ne s.a n

/-- A reader of a flag does something else with the flag 0 than with the flag 1, besides P. -/
theorem Effect.ne_of_reader {f : Flag} (hm : m ∈ flagReaders f)
    (h : Effect base { s with p := setFlag s.p f false } m o t) (h' : Effect base { s with p := setFlag s.p f true } m o t') :
    { t' with p := t.p } ≠ t := by
  intro heq
  obtain rfl | ⟨rfl, rfl | rfl⟩ | ⟨hbranch, b, htaken⟩ := flagReaders_cases hm
  · have hread : t'.read (stackAddress s.s) = t.read (stackAddress s.s) :=
      State.read_congr (congrArg State.ram heq) (congrArg State.ppu heq) (congrArg State.apu heq) _
    have hpushed := h.read_pushed_status f
    have hpushed' := h'.read_pushed_status f
    rw [← hread] at hpushed
    simpa [State.flag] using hpushed.symm.trans hpushed'
  · cases h; cases h'
    simp only [operandValue_withP] at heq
    exact addToA_carry_ne _ _ _ s (congrArg State.a heq).symm
  · cases h; cases h'
    simp only [operandValue_withP] at heq
    exact addToA_carry_ne _ _ _ s (congrArg State.a heq).symm
  · obtain ⟨d, _, rfl⟩ := h.of_branch hbranch
    obtain ⟨d', _, rfl⟩ := h'.of_branch hbranch
    refine branch_remainingCycles_ne d d' _ _ ?_ (congrArg State.remainingCycles heq).symm
    simp [htaken, State.flag]

end Sys2Proof.Machine

namespace Sys2Proof.Proofs

open Sys2Proof Sys2Proof.Machine Sys2Proof.Claims

/-- Settles O46: the frame of A, and noninterference of A. -/
theorem accumulatorReadersAndWriters : Obligations.AccumulatorReadersAndWriters := by
  refine ⟨fun i s => ?_, fun i s v hm => ?_, resolve_withA⟩
  · exact exec_of_effect i s fun _ _ h hm => h.reg_kept (q := .a) hm
  · refine exec_of_effects i s { s with a := v } fun base t t' h h' => ?_
    obtain ⟨hrest, hacc⟩ := h.eq_of_other_a hm h'
    refine ⟨hrest, hacc.trans ?_⟩
    simp only [mem_regWriters_a_iff hm]

/-- Settles O16: every instruction but PHP finds what it reads alike; PLP, RTI and PHP by the byte on the stack. -/
theorem decimalAndInterruptDisableHaveNoEffect : Obligations.DecimalAndInterruptDisableHaveNoEffect := by
  refine ⟨fun i s => ⟨?_, fun hphp d n => ?_⟩, fun s => ⟨?_, ?_, ?_⟩⟩
  · refine exec_of_effect i s fun base t h hm => ?_
    obtain ⟨hd, hi⟩ := flagsWritten_d_i hm
    exact ⟨h.flag_kept hd, h.flag_kept hi⟩
  · have hread := readsAlike_setFlag_d_i hphp s d n
    obtain ⟨t, t', ht, ht', hrest, hflags⟩ := exec_of_effects i s { s with p := setFlag (setFlag s.p .d d) .i n }
      (R := fun t t' => { t' with p := t.p } = t ∧ ∀ f, f ≠ .d → f ≠ .i → t'.flag f = t.flag f)
      fun _ _ _ h h' =>
        ⟨h.eq_of_other_p hread h', fun _ hd hi => h.status_eq_of_readsAlike hread h' (flag_setFlag_d_i hd hi s.p d n)⟩
    refine ⟨⟨t, t', ht, ht', hrest⟩, fun u u' hu hu' => ?_⟩
    rw [Host.Outcome.next.inj (hu.symm.trans ht), Host.Outcome.next.inj (hu'.symm.trans ht')]
    exact hflags
  · exact exec_of_effect .plp s fun _ _ h => ⟨h.flag_pulled (.inl rfl) .d, h.flag_pulled (.inl rfl) .i⟩
  · exact exec_of_effect .rti s fun _ _ h => ⟨h.flag_pulled (.inr rfl) .d, h.flag_pulled (.inr rfl) .i⟩
  · exact exec_of_effect .php s fun _ _ h => ⟨h.read_pushed_status .d, h.read_pushed_status .i⟩

/-- Settles O17: noninterference of the flag, and for a reader a part of the state in which the two outcomes differ. -/
theorem onlyTheReadersDependOnAFlag : Obligations.OnlyTheReadersDependOnAFlag := by
  refine fun i s f => ⟨fun hm b => ?_, fun hm => ?_⟩
  · refine exec_of_effects i s { s with p := setFlag s.p f b } fun base t t' h h' => ?_
    have hread := readsAlike_setFlag hm s b
    refine ⟨h.eq_of_other_p hread h', fun k hk => ?_, (h.status_of_readsAlike hread h' f.bit).trans ?_⟩
    · exact h.status_eq_of_readsAlike hread h' (by rw [getLsbD_setFlag, if_neg hk])
    · rw [flag_setFlag, if_pos rfl]
      rfl
  · exact exec_of_effects i _ _ fun base t t' h h' => h.ne_of_reader hm h'

end Sys2Proof.Proofs
end

section
/-! The bus, region by region: the route of an address (20_memory.md R51), the read (R56) and the write (R57) it leads to. -/

namespace Sys2Proof.Machine

variable {s : State} {a b : U16}

/-! ## The route of an address; `route_of_lt` is the one into RAM, `route_of_ge` the one to open bus -/

theorem route_of_ppu_window (h : 0x2000 ≤ a.toNat) (h' : a.toNat < 0x4000) :
    route a = .ppu ⟨(a.toNat - 0x2000) % 8, Nat.mod_lt _ (by decide)⟩ := by
  simp [route, show ¬ a.toNat < 0x2000 by omega, h']

theorem route_of_apu_window (h : 0x4000 ≤ a.toNat) (h' : a.toNat < 0x4018) :
    route a = .apu ⟨a.toNat - 0x4000, by omega⟩ := by
  simp [route, show ¬ a.toNat < 0x2000 by omega, show ¬ a.toNat < 0x4000 by omega, show a.toNat - 0x4000 < 24 by omega]

theorem route_eq_openBus_iff : route a = .openBus ↔ 0x4018 ≤ a.toNat := by
  refine ⟨fun h => ?_, route_of_ge⟩
  by_contra hlt
  exact route_ne_openBus (by omega) h

/-- RAM repeats every 0x0800 addresses (R52). -/
theorem route_eq_of_ram_mirror (ha : a.toNat < 0x2000) (hb : b.toNat < 0x2000) (h : a.toNat % 0x0800 = b.toNat % 0x0800) :
    route a = route b := by
  rw [route_of_lt ha, route_of_lt hb, Route.ram.injEq, Fin.mk.injEq]
  exact h

/-- The PPU window repeats every 8 addresses (R53); its base is a multiple of 8. -/
theorem route_eq_of_ppu_mirror (ha : 0x2000 ≤ a.toNat) (ha' : a.toNat < 0x4000) (hb : 0x2000 ≤ b.toNat) (hb' : b.toNat < 0x4000)
    (h : a.toNat % 8 = b.toNat % 8) : route a = route b := by
  rw [route_of_ppu_window ha ha', route_of_ppu_window hb hb', Route.ppu.injEq, Fin.mk.injEq]
  omega

/-! ## The read and the write through a route -/

theorem State.read_of_ram {i : Fin 2048} (h : route a = .ram i) : s.read a = Memory.read s.ram i.val := by
  simp [State.read, h]

theorem State.read_of_ppu {i : Fin 8} (h : route a = .ppu i) : s.read a = Memory.read s.ppu i.val := by
  simp [State.read, h]

theorem State.read_of_apu {i : Fin 24} (h : route a = .apu i) : s.read a = Memory.read s.apu i.val := by
  simp [State.read, h]

theorem State.write_of_ram {i : Fin 2048} (h : route a = .ram i) (v : Byte) :
    s.write a v = { s with ram := Memory.write s.ram i.val v } := by
  simp [State.write, h]

theorem State.write_of_ppu {i : Fin 8} (h : route a = .ppu i) (v : Byte) :
    s.write a v = { s with ppu := Memory.write s.ppu i.val v } := by
  simp [State.write, h]

theorem State.write_of_apu {i : Fin 24} (h : route a = .apu i) (v : Byte) :
    s.write a v = { s with apu := Memory.write s.apu i.val v } := by
  simp [State.write, h]

/-- A write changes the three arrays and nothing else. -/
theorem State.write_frame (s : State) (a : U16) (v : Byte) :
    { s.write a v with ram := s.ram, ppu := s.ppu, apu := s.apu } = s := by
  rw [State.write_eq]

/-- Open bus holds no code: its byte 0xFF is unmapped (R55, decision D1). -/
theorem State.fetched_of_ge (h : 0x4018 ≤ s.pc.toNat) : s.fetched = .unmapped 0xFF#8 := by
  rw [State.fetched, State.read_of_ge s h]
  rfl

end Sys2Proof.Machine

namespace Sys2Proof.Proofs

open Sys2Proof Sys2Proof.Machine

/-- Settles O8, by the four regions of the router. -/
theorem busReadFollowsTheRouter : Obligations.BusReadFollowsTheRouter := by
  refine fun s a => ⟨fun h => ?ram, fun h h' => ?ppu, fun h h' => ?apu, fun h => ⟨route_of_ge h, s.read_of_ge h⟩⟩
  case ram =>
    have hroute := route_of_lt (a := a) (by omega)
    exact ⟨⟨_, hroute, rfl⟩, by rw [State.read_of_ram hroute]⟩
  case ppu =>
    have hroute := route_of_ppu_window h (by omega)
    exact ⟨⟨_, hroute, rfl⟩, by rw [State.read_of_ppu hroute]⟩
  case apu =>
    have hroute := route_of_apu_window h (by omega)
    exact ⟨⟨_, hroute, rfl⟩, by rw [State.read_of_apu hroute]⟩

/-- Settles O9: in each region the write is one `Memory.write`. -/
theorem busWriteReplacesOneElement : Obligations.BusWriteReplacesOneElement := by
  refine fun s a v =>
    ⟨s.write_frame a v, fun h => ?ram, fun h h' => ?ppu, fun h h' => ?apu, fun h => State.write_openBus (route_of_ge h)⟩
  case ram =>
    rw [State.write_of_ram (route_of_lt (by omega))]
    exact ⟨rfl, rfl, fun i => Memory.read_write ..⟩
  case ppu =>
    rw [State.write_of_ppu (route_of_ppu_window h (by omega))]
    exact ⟨rfl, rfl, fun i => Memory.read_write ..⟩
  case apu =>
    rw [State.write_of_apu (route_of_apu_window h (by omega))]
    exact ⟨rfl, rfl, fun i => Memory.read_write ..⟩

/-- Settles O10: mirrors are the addresses with one route, and there a read sees the write. -/
theorem mirrorsSeeTheWrite : Obligations.MirrorsSeeTheWrite := by
  refine fun s a b v => ⟨?_, State.read_write_other⟩
  rintro (⟨ha, hb, h⟩ | ⟨ha, ha', hb, hb', h⟩ | ⟨rfl, ha⟩)
  · exact State.read_write_same (route_eq_of_ram_mirror ha hb h) (route_ne_openBus (by omega))
  · exact State.read_write_same (route_eq_of_ppu_mirror ha ha' hb hb' h) (route_ne_openBus (by omega))
  · exact State.read_write_same rfl (route_ne_openBus ha)

/-- Settles O11. -/
theorem openBusReadsFFAndDiscardsWrites : Obligations.OpenBusReadsFFAndDiscardsWrites :=
  fun s _ _ => ⟨route_eq_openBus_iff.symm,
    fun h => ⟨s.read_of_ge h, State.write_openBus (route_of_ge h), State.fetched_of_ge h⟩⟩

end Sys2Proof.Proofs
end

section
/-! What an instruction leaves of memory (20_memory.md section 6): every byte but those at the addresses it stores to. -/

namespace Sys2Proof.Machine

variable {s : State} {a : U16}

/-! ## The operations that store, read away from where they store -/

theorem store_read_other {o : Operand} (h : route (resolve o s).ea ≠ route a) (r : Reg) (base : Nat) :
    (store r o base s).read a = s.read a := by
  rw [store_eq]
  exact State.read_write_other h

theorem modifyMemory_read_other {o : Operand} (h : route (resolve o s).ea ≠ route a) (f : Byte → Byte) (base : Nat) :
    (modifyMemory f o base s).read a = s.read a := by
  rw [modifyMemory_eq]
  exact State.read_write_other h

theorem State.read_push_other (h : route (stackAddress s.s) ≠ route a) (v : Byte) : (s.push v).read a = s.read a :=
  State.read_write_other h

@[simp] theorem State.read_jumpTo (s : State) (target : U16) (cost : Nat) (a : U16) : (s.jumpTo target cost).read a = s.read a := rfl

theorem callSubroutine_read_other (hHigh : route (stackAddress s.s) ≠ route a) (hLow : route (stackAddress (s.s - 1)) ≠ route a)
    (target : U16) (base : Nat) : (callSubroutine target base s).read a = s.read a := by
  rw [callSubroutine, State.read_jumpTo, State.read_push_other, State.read_push_other hHigh]
  rwa [State.push_s]

theorem branch_read (c : Bool) (d : Byte) (s : State) (a : U16) : (branch c d s).read a = s.read a := by
  cases c <;> rfl

/-! ## Every instruction -/

/-- An address that is no mirror of one the instruction stores to reads as before. -/
theorem Effect.read_kept {base : Nat} {i : Instr} {t : State} (h : Effect base s i.mnemonic i.operand t)
    (hkept : ∀ b ∈ storeAddresses i s, route b ≠ route a) : t.read a = s.read a := by
  unfold storeAddresses at hkept
  generalize i.mnemonic = m at h hkept
  generalize i.operand = o at h hkept
  cases h with
  | sta o | stx o | sty o => exact store_read_other (hkept _ (by simp)) ..
  | inc o | dec o => exact modifyMemory_read_other (hkept _ (by simp)) ..
  | pha | php => exact State.read_push_other (hkept _ (by simp)) _
  | jsr w => exact callSubroutine_read_other (hkept _ (by simp)) (hkept _ (by simp)) ..
  | bcc | bcs | beq | bne | bmi | bpl | bvc | bvs => exact branch_read ..
  | _ => rfl

end Sys2Proof.Machine

namespace Sys2Proof.Proofs

open Sys2Proof Sys2Proof.Machine

/-- Settles O44. -/
theorem memoryChangesOnlyWhereStored : Obligations.MemoryChangesOnlyWhereStored :=
  fun i s => exec_of_effect i s fun _ _ h _ hkept => h.read_kept hkept

end Sys2Proof.Proofs
end

section
/-! The opcode table (30_encoding.md R82, R86, R88): what the opcode byte alone decides of the decoded instruction, and how the operand bytes enter it. -/

namespace Sys2Proof

/-! ## Operands and their bytes (R84) -/

@[simp] theorem Operand.mode_ofBytes (m : Mode) (b1 b2 : Byte) : (Operand.ofBytes m b1 b2).mode = m := by
  cases m <;> rfl

@[simp] theorem Operand.length_ofBytes (m : Mode) (b1 b2 : Byte) : (Operand.ofBytes m b1 b2).length = m.length :=
  congrArg Mode.length (mode_ofBytes m b1 b2)

/-- The operand bytes are the first `m.length - 1` of the two bytes after the opcode: nothing that a mode uses is dropped. -/
theorem Operand.bytes_ofBytes (m : Mode) (b1 b2 : Byte) : (ofBytes m b1 b2).bytes = [b1, b2].take (m.length - 1) := by
  cases m with
  | implied | immediate | zeroPage | zeroPageX | zeroPageY | indirectX | indirectY | relative => rfl
  | absolute | absoluteX | absoluteY | indirect => simp [ofBytes, bytes, Mode.length]

/-! ## Unmapped bytes (R88) -/

theorem Instr.eq_unmapped_of_mnemonic {i : Instr} (h : i.mnemonic = .unmapped) : i = .unmapped i.opcode := by
  cases i with
  | unmapped op => rfl
  | _ => cases h

theorem Instr.operand_eq_none_iff (i : Instr) : i.operand = none ↔ i.mnemonic = .unmapped := by
  cases i <;> simp [operand, mnemonic]

/-- A term is an instruction unless it is `unmapped` with a mapped byte. -/
theorem Instr.wellFormed_iff (i : Instr) : i.wellFormed = true ↔ (i.mnemonic = .unmapped → i.opcode ∈ unmappedOpcodes) := by
  cases i with
  | unmapped op => simp [wellFormed, mnemonic, opcode]
  | _ => exact ⟨fun _ => nofun, fun _ => rfl⟩

/-! ## The decoder, row by row -/

@[simp] theorem decodeOp_opcode (op b1 b2 : Byte) : (decodeOp op b1 b2).opcode = op := by
  unfold decodeOp
  split <;> rfl

/-- The opcode byte alone selects the mnemonic (R82). -/
theorem decodeOp_mnemonic (op b1 b2 : Byte) : (decodeOp op b1 b2).mnemonic = (decodeOp op 0 0).mnemonic := by
  unfold decodeOp
  split <;> rfl

/-- The operand is the one of the row's mode that the bytes after the opcode byte give (R84). -/
theorem decodeOp_operand (op b1 b2 : Byte) :
    (decodeOp op b1 b2).operand = (decodeOp op 0 0).operand.map fun o => .ofBytes o.mode b1 b2 := by
  unfold decodeOp
  split <;> rfl

/-- The 256 opcode bytes in order. -/
def opcodeBytes : List Byte := (List.range 256).map (BitVec.ofNat 8)

theorem mem_opcodeBytes (op : Byte) : op ∈ opcodeBytes :=
  List.mem_map.mpr ⟨op.toNat, List.mem_range.mpr op.isLt, by simp⟩

/-- Whether the opcode table has no entry for a byte. -/
def isUnmapped (op : Byte) : Bool := decide ((decodeOp op 0 0).mnemonic = .unmapped)

/-- The list of R88 is what the opcode table leaves of the 256 bytes (decision D1), evaluated for each half of the opcode matrix; 107 of its entries
are below 0x80. -/
theorem unmappedOpcodes_eq_filter : unmappedOpcodes = opcodeBytes.filter isUnmapped := by
  have hlower : unmappedOpcodes.take 107 = (opcodeBytes.take 128).filter isUnmapped := by decide
  have hupper : unmappedOpcodes.drop 107 = (opcodeBytes.drop 128).filter isUnmapped := by decide
  rw [← List.take_append_drop 107 unmappedOpcodes, hlower, hupper, ← List.filter_append, List.take_append_drop]

theorem decodeOp_mnemonic_unmapped_iff (op : Byte) : (decodeOp op 0 0).mnemonic = .unmapped ↔ op ∈ unmappedOpcodes := by
  rw [unmappedOpcodes_eq_filter, List.mem_filter, isUnmapped, decide_eq_true_iff]
  exact (and_iff_right (mem_opcodeBytes op)).symm

theorem decodeOp_of_mem_unmappedOpcodes {op : Byte} (h : op ∈ unmappedOpcodes) (b1 b2 : Byte) : decodeOp op b1 b2 = .unmapped op := by
  have hm : (decodeOp op b1 b2).mnemonic = .unmapped := (decodeOp_mnemonic ..).trans ((decodeOp_mnemonic_unmapped_iff op).mpr h)
  simpa using Instr.eq_unmapped_of_mnemonic hm

/-- The opcode byte alone selects the mode, and with it the length (R81, R82). -/
theorem decodeOp_mode (op b1 b2 : Byte) :
    (decodeOp op b1 b2).operand.map Operand.mode = (decodeOp op 0 0).operand.map Operand.mode := by
  rw [decodeOp_operand, Option.map_map]
  exact congrArg (Option.map · _) (funext fun o => Operand.mode_ofBytes ..)

theorem Instr.length_eq_of_mode (i : Instr) : i.length = (i.operand.map Operand.mode).elim 0 Mode.length := by
  rw [Instr.length_eq]
  cases i.operand <;> rfl

theorem decodeOp_length (op b1 b2 : Byte) : (decodeOp op b1 b2).length = (decodeOp op 0 0).length := by
  rw [Instr.length_eq_of_mode, Instr.length_eq_of_mode, decodeOp_mode]

/-- The decoded operand in terms of its own mode. -/
theorem decodeOp_operand_eq_ofBytes {op b1 b2 : Byte} {o : Operand} (h : (decodeOp op b1 b2).operand = some o) :
    o = .ofBytes o.mode b1 b2 := by
  rw [decodeOp_operand, Option.map_eq_some_iff] at h
  obtain ⟨o', _, rfl⟩ := h
  rw [Operand.mode_ofBytes]

/-- The bytes that follow the opcode byte in an encoding. -/
theorem encode_eq (i : Instr) : encode i = i.opcode :: i.operand.elim [] Operand.bytes := by
  unfold encode
  cases i.operand <;> rfl

/-- The encoding of what three bytes decode to is a beginning of them. -/
theorem encode_decodeOp (op b1 b2 : Byte) :
    encode (decodeOp op b1 b2) = op :: [b1, b2].take ((decodeOp op b1 b2).length - 1) := by
  rw [encode_eq, decodeOp_opcode, Instr.length_eq]
  cases h : (decodeOp op b1 b2).operand with
  | none => rfl
  | some o =>
    have ho := decodeOp_operand_eq_ofBytes h
    rw [Option.elim_some, Option.elim_some, ho, Operand.bytes_ofBytes, Operand.length_ofBytes]

/-! ## The decoder on a list -/

/-- Enough bytes for the instruction that the first one begins: it is decoded. -/
theorem decode_cons {op : Byte} {rest : List Byte} (h : (decodeOp op (rest.getD 0 0) (rest.getD 1 0)).length ≤ rest.length + 1) :
    decode (op :: rest) = .ok (decodeOp op (rest.getD 0 0) (rest.getD 1 0)) :=
  if_neg (Nat.not_lt.mpr h)

theorem decodeOp_of_decode {op : Byte} {rest : List Byte} {i : Instr} (h : decode (op :: rest) = .ok i) :
    decodeOp op (rest.getD 0 0) (rest.getD 1 0) = i := by
  simp only [decode] at h
  split at h
  · cases h
  · exact Except.ok.inj h

/-- The round trip, by the number of operand bytes of the row. -/
theorem decode_encode (i : Instr) (rest : List Byte) (h : i.wellFormed = true) : decode (encode i ++ rest) = .ok i := by
  cases i with
  | unmapped op =>
    have hop : op ∈ unmappedOpcodes := (Instr.wellFormed_iff _).mp h rfl
    exact decode_of_opcode (decodeOp_of_mem_unmappedOpcodes hop) (Nat.zero_le 1)
  | tax | tay | tsx | txa | txs | tya | inx | iny | dex | dey | pha | php | pla | plp | rts | rti =>
    exact decode_of_opcode (fun _ _ => rfl) le_rfl
  | ldaImmediate | ldaZeroPage | ldaZeroPageX | ldaIndirectX | ldaIndirectY | ldxImmediate | ldxZeroPage | ldxZeroPageY
  | ldyImmediate | ldyZeroPage | ldyZeroPageX | staZeroPage | staZeroPageX | staIndirectX | staIndirectY | stxZeroPage | stxZeroPageY
  | styZeroPage | styZeroPageX | incZeroPage | incZeroPageX | decZeroPage | decZeroPageX | bcc | bcs | beq | bne | bmi | bpl | bvc | bvs
  | adcImmediate | adcZeroPage | adcZeroPageX | adcIndirectX | adcIndirectY
  | sbcImmediate | sbcZeroPage | sbcZeroPageX | sbcIndirectX | sbcIndirectY =>
    exact decode_of_byte (fun _ => rfl) le_rfl
  | ldaAbsolute | ldaAbsoluteX | ldaAbsoluteY | ldxAbsolute | ldxAbsoluteY | ldyAbsolute | ldyAbsoluteX | staAbsolute | staAbsoluteX
  | staAbsoluteY | stxAbsolute | styAbsolute | incAbsolute | incAbsoluteX | decAbsolute | decAbsoluteX | jmpAbsolute | jmpIndirect
  | adcAbsolute | adcAbsoluteX | adcAbsoluteY | sbcAbsolute | sbcAbsoluteX | sbcAbsoluteY | jsr =>
    exact decode_of_word (fun _ _ => rfl) le_rfl

/-- Every instruction is what the decoder makes of its opcode byte and some operand bytes. -/
theorem Instr.exists_decodeOp_eq {i : Instr} (h : i.wellFormed = true) : ∃ b1 b2, decodeOp i.opcode b1 b2 = i := by
  have hdecode := decode_encode i [] h
  rw [encode_eq, List.cons_append] at hdecode
  exact ⟨_, _, decodeOp_of_decode hdecode⟩

end Sys2Proof

namespace Sys2Proof.Proofs

open Sys2Proof

/-- Settles O1, by `decode_encode`: the rows fall into those without an operand byte, with one and with two. -/
theorem decodeOfEncodeIsTheInstruction : Obligations.DecodeOfEncodeIsTheInstruction :=
  decode_encode

/-- Settles O2: well-formed by the table of unmapped bytes, a beginning of the three bytes by `encode_decodeOp`, and the row by the opcode byte. -/
theorem decodingAnyBytesLosesNothing : Obligations.DecodingAnyBytesLosesNothing := by
  refine fun op b1 b2 => ⟨?wellFormed, ⟨[b1, b2].drop ((decodeOp op b1 b2).length - 1), ?beginning⟩, fun c1 c2 => ?row⟩
  case wellFormed =>
    rw [Instr.wellFormed_iff, decodeOp_opcode, decodeOp_mnemonic]
    exact (decodeOp_mnemonic_unmapped_iff op).mp
  case beginning =>
    rw [encode_decodeOp, List.cons_append, List.take_append_drop]
  case row =>
    exact ⟨(decodeOp_mnemonic op c1 c2).trans (decodeOp_mnemonic op b1 b2).symm,
      (decodeOp_mode op c1 c2).trans (decodeOp_mode op b1 b2).symm, (decodeOp_length op c1 c2).trans (decodeOp_length op b1 b2).symm⟩

/-- Settles O3: the mnemonic depends on the opcode byte alone, so the table of the 256 bytes decides. -/
theorem unmappedBytesAreThoseListed : Obligations.UnmappedBytesAreThoseListed := by
  refine ⟨rfl, fun op b1 b2 => ?_⟩
  rw [decodeOp_mnemonic]
  exact decodeOp_mnemonic_unmapped_iff op

/-- Settles O4, by the decoder's equations for one and two operand bytes. -/
theorem sourceOpcodeBytesDecode : Obligations.SourceOpcodeBytesDecode :=
  fun b1 b2 => ⟨decode_of_byte (fun _ => rfl) le_rfl, decode_of_byte (fun _ => rfl) le_rfl, word b1 b2, decode_three ..⟩

/-- Settles O5, by evaluating the decoder on each word. -/
theorem familyWordsDecode : Obligations.FamilyWordsDecode := by
  unfold Obligations.FamilyWordsDecode
  decide

end Sys2Proof.Proofs

namespace Sys2Proof.Machine

/-- The datum of an Immediate instruction is the operand byte it carries, so it is the bus byte at PC + 1 if that is what was assembled (R111, log 5); every
other datum is read at the effective address by definition. -/
theorem operandValue_eq_read_of_ofBytes {s : State} {o : Operand} {b2 : Byte} (h : o = .ofBytes o.mode (s.read (s.pc + 1)) b2) :
    operandValue o s = s.read (resolve o s).ea := by
  cases o with
  | immediate v => exact Operand.immediate.inj h
  | _ => rfl

end Sys2Proof.Machine

namespace Sys2Proof.Proofs

open Sys2Proof Sys2Proof.Machine

/-- Settles O22: the fetch is a decoding of the three bus bytes, whose operand is the one of its mode that they give. -/
theorem fetchedOperandIsWhatTheBusHolds : Obligations.FetchedOperandIsWhatTheBusHolds := by
  intro s o ho
  have hbytes := decodeOp_operand_eq_ofBytes ho
  exact ⟨decodeOp_opcode .., hbytes, operandValue_eq_read_of_ofBytes hbytes⟩

end Sys2Proof.Proofs
end

section
/-! The assembler's side (30_encoding.md R87, R91): when a pair has an opcode byte, when a value has operand bytes, and what these say. -/

namespace Sys2Proof.Machine

variable {m : Mnemonic} {mode : Mode} {n : Nat} {pc : U16} {op : Byte} {bs : List Byte}

/-! ## The opcode byte of a pair -/

theorem opcodeOf_eq_some (h : opcodeOf m mode = some op) :
    (decodeOp op 0 0).mnemonic = m ∧ (decodeOp op 0 0).operand.map Operand.mode = some mode := by
  simpa using List.find?_some h

/-- A pair has no opcode byte exactly when it is no instruction's. -/
theorem opcodeOf_eq_none_iff :
    opcodeOf m mode = none ↔ ∀ i : Instr, i.mnemonic = m → i.operand.map Operand.mode ≠ some mode := by
  have hfind : opcodeOf m mode = none ↔
      ∀ op, (decodeOp op 0 0).mnemonic = m → (decodeOp op 0 0).operand.map Operand.mode ≠ some mode := by
    show opcodeBytes.find? _ = none ↔ _
    simp [mem_opcodeBytes]
  rw [hfind]
  refine ⟨fun h i hm hmode => ?_, fun h op => h _⟩
  have hmapped : i.mnemonic ≠ .unmapped := by
    rw [Ne, ← Instr.operand_eq_none_iff]
    intro hnone
    simp [hnone] at hmode
  obtain ⟨b1, b2, hi⟩ := Instr.exists_decodeOp_eq ((Instr.wellFormed_iff i).mpr fun hu => absurd hu hmapped)
  rw [← hi, decodeOp_mnemonic] at hm
  rw [← hi, decodeOp_mode] at hmode
  exact h _ hm hmode

/-! ## The operand bytes of a value -/

/-- The modes with one operand byte that says the value. -/
def byteModes : List Mode := [.immediate, .zeroPage, .zeroPageX, .zeroPageY, .indirectX, .indirectY]

/-- The modes with a 16-bit operand. -/
def wordModes : List Mode := [.absolute, .absoluteX, .absoluteY, .indirect]

theorem operandBytes_byte_iff (h : mode ∈ byteModes) : operandBytes mode n pc = some bs ↔ n < 0x100 ∧ [BitVec.ofNat 8 n] = bs := by
  cases mode with
  | immediate | zeroPage | zeroPageX | zeroPageY | indirectX | indirectY => simp [operandBytes]
  | _ => exact absurd h (by decide)

theorem operandBytes_word_iff (h : mode ∈ wordModes) :
    operandBytes mode n pc = some bs ↔ n < 0x10000 ∧ [hiByte (BitVec.ofNat 16 n), loByte (BitVec.ofNat 16 n)] = bs := by
  cases mode with
  | absolute | absoluteX | absoluteY | indirect => simp [operandBytes]
  | _ => exact absurd h (by decide)

/-- A 16-bit distance is a displacement exactly when it is a signed byte. -/
theorem signExtend_eq_iff (d : Byte) (x : U16) :
    d.signExtend 16 = x ↔ (-128 ≤ x.toInt ∧ x.toInt ≤ 127) ∧ x.setWidth 8 = d := by
  have hd := d.isLt
  have hx := x.isLt
  rw [← BitVec.toNat_inj, ← BitVec.toNat_inj, signExtend_toNat, BitVec.toInt_eq_toNat_cond, BitVec.toNat_setWidth]
  split <;> split <;> omega

/-- The displacement of a branch is the byte that leads from the address after the branch to the target (40_addressing.md R121). -/
theorem displacement_eq_some_iff {target : U16} {d : Byte} :
    displacement pc target = some d ↔ pc + 2 + d.signExtend 16 = target := by
  rw [BitVec.add_comm, ← BitVec.eq_sub_iff_add_eq, signExtend_eq_iff, displacement, Option.ite_none_right_eq_some, Option.some_inj]

theorem operandBytes_relative_iff :
    operandBytes .relative n pc = some bs ↔ ∃ d : Byte, (pc + 2 + d.signExtend 16).toNat = n ∧ [d] = bs := by
  simp only [operandBytes, Option.ite_none_right_eq_some, Option.map_eq_some_iff, displacement_eq_some_iff, BitVec.toNat_eq_nat,
    Nat.reducePow, and_assoc, exists_and_left]

/-- The value that has no operand bytes in its mode (R91, log 14); an Implied value is ignored. -/
theorem operandBytes_eq_none_iff :
    operandBytes mode n pc = none ↔
      (mode ∈ byteModes ∧ 0xFF < n) ∨ (mode ∈ wordModes ∧ 0xFFFF < n) ∨
      (mode = .relative ∧ ∀ d : Byte, (pc + 2 + d.signExtend 16).toNat ≠ n) := by
  cases mode with
  | implied => simp [operandBytes, byteModes, wordModes]
  | immediate | zeroPage | zeroPageX | zeroPageY | indirectX | indirectY | absolute | absoluteX | absoluteY | indirect =>
    simp [operandBytes, byteModes, wordModes]
    omega
  | relative =>
    rw [Option.eq_none_iff_forall_ne_some]
    simp [operandBytes_relative_iff, byteModes, wordModes]

/-- A mode's operand bytes fill its length (R81). -/
theorem length_of_operandBytes (h : operandBytes mode n pc = some bs) : mode.length = bs.length + 1 := by
  cases mode with
  | implied =>
    obtain rfl := Option.some.inj h
    rfl
  | immediate | zeroPage | zeroPageX | zeroPageY | indirectX | indirectY =>
    obtain ⟨_, rfl⟩ := (operandBytes_byte_iff (by decide)).mp h
    rfl
  | absolute | absoluteX | absoluteY | indirect =>
    obtain ⟨_, rfl⟩ := (operandBytes_word_iff (by decide)).mp h
    rfl
  | relative =>
    obtain ⟨_, _, rfl⟩ := operandBytes_relative_iff.mp h
    rfl

/-! ## What the operand bytes say -/

theorem hiByte_toNat (w : U16) : (hiByte w).toNat = w.toNat / 256 := by
  have hw := w.isLt
  rw [hiByte, BitVec.extractLsb'_toNat, Nat.shiftRight_eq_div_pow]
  omega

theorem loByte_toNat (w : U16) : (loByte w).toNat = w.toNat % 256 :=
  BitVec.toNat_setWidth ..

theorem byte_of_operandBytes (hmode : mode ∈ byteModes) (h : operandBytes mode n pc = some bs) : (bs.getD 0 0).toNat = n := by
  obtain ⟨hn, rfl⟩ := (operandBytes_byte_iff hmode).mp h
  exact Nat.mod_eq_of_lt hn

theorem word_of_operandBytes (hmode : mode ∈ wordModes) (h : operandBytes mode n pc = some bs) :
    (bs.getD 0 0).toNat * 256 + (bs.getD 1 0).toNat = n := by
  obtain ⟨hn, rfl⟩ := (operandBytes_word_iff hmode).mp h
  rw [List.getD_cons_zero, List.getD_cons_succ, List.getD_cons_zero, hiByte_toNat, loByte_toNat, Nat.div_add_mod', BitVec.toNat_ofNat]
  exact Nat.mod_eq_of_lt hn

theorem target_of_operandBytes (h : operandBytes .relative n pc = some bs) : (pc + 2 + (bs.getD 0 0).signExtend 16).toNat = n := by
  obtain ⟨d, htarget, rfl⟩ := operandBytes_relative_iff.mp h
  exact htarget

/-! ## The whole instruction -/

theorem assemble_eq_some {bytes : List Byte} (h : assemble m mode n pc = some bytes) :
    ∃ op bs, opcodeOf m mode = some op ∧ operandBytes mode n pc = some bs ∧ bytes = op :: bs := by
  unfold assemble at h
  split at h
  · next op bs hop hbs => exact ⟨op, bs, hop, hbs, (Option.some.inj h).symm⟩
  · cases h

theorem assemble_eq_none_iff : assemble m mode n pc = none ↔ opcodeOf m mode = none ∨ operandBytes mode n pc = none := by
  unfold assemble
  cases opcodeOf m mode <;> cases operandBytes mode n pc <;> simp

/-- A list of at most two bytes, from the two bytes that the decoder looks up in it. -/
theorem take_getD_eq_self (h : bs.length ≤ 2) : [bs.getD 0 0, bs.getD 1 0].take bs.length = bs := by
  match bs, h with
  | [], _ | [_], _ | [_, _], _ => rfl

/-- An opcode byte followed by as many operand bytes as its row has is the encoding of an instruction of that row. -/
theorem decode_and_encode_of_length (h : (decodeOp op 0 0).length = bs.length + 1) :
    decode (op :: bs) = .ok (decodeOp op (bs.getD 0 0) (bs.getD 1 0)) ∧
    encode (decodeOp op (bs.getD 0 0) (bs.getD 1 0)) = op :: bs := by
  have hlength := (decodeOp_length op (bs.getD 0 0) (bs.getD 1 0)).trans h
  have hshort : bs.length ≤ 2 := by
    have := (decodeOp op 0 0).length_le_three
    omega
  refine ⟨decode_cons hlength.le, ?_⟩
  rw [encode_decodeOp, hlength, Nat.add_sub_cancel, take_getD_eq_self hshort]

end Sys2Proof.Machine

namespace Sys2Proof.Proofs

open Sys2Proof Sys2Proof.Machine

/-- Settles O6: the opcode byte is that of the pair's row, and the operand bytes have the length that the row's mode asks for. -/
theorem assemblerEmitsTheEncoding : Obligations.AssemblerEmitsTheEncoding := by
  intro m mode n pc bytes h
  obtain ⟨op, bs, hop, hbs, rfl⟩ := assemble_eq_some h
  obtain ⟨hmnemonic, hmode⟩ := opcodeOf_eq_some hop
  refine ⟨?encoding, fun hm => byte_of_operandBytes hm hbs, fun hm => word_of_operandBytes hm hbs, ?branch⟩
  case encoding =>
    have hlength : (decodeOp op 0 0).length = bs.length + 1 := by
      rw [Instr.length_eq_of_mode, hmode]
      exact length_of_operandBytes hbs
    obtain ⟨hdecode, hencode⟩ := decode_and_encode_of_length hlength
    exact ⟨_, hdecode, hencode, (decodeOp_mnemonic ..).trans hmnemonic, (decodeOp_mode ..).trans hmode⟩
  case branch =>
    rintro rfl s rfl
    exact target_of_operandBytes hbs

/-- Settles O7: refused is a pair without an opcode byte or a value without operand bytes. -/
theorem assemblerRejectsWhatHasNoEncoding : Obligations.AssemblerRejectsWhatHasNoEncoding :=
  fun _ _ _ _ => assemble_eq_none_iff.trans (or_congr opcodeOf_eq_none_iff operandBytes_eq_none_iff)

end Sys2Proof.Proofs
end

section
/-! The resolver (40_addressing.md): page crossings, pointers and branch targets as numbers, and the address each mode leads to. -/

namespace Sys2Proof

theorem word_toNat (h l : Byte) : (word h l).toNat = h.toNat * 256 + l.toNat := by
  rw [word, BitVec.toNat_append, ← Nat.shiftLeft_add_eq_or_of_lt l.isLt, Nat.shiftLeft_eq]

theorem ofNat_eq_word (h l : Byte) : BitVec.ofNat 16 (h.toNat * 256 + l.toNat) = word h l := by
  rw [← word_toNat, BitVec.ofNat_toNat, BitVec.setWidth_eq]

end Sys2Proof

namespace Sys2Proof.Machine

/-! ## Page crossing (R124) -/

theorem pagesDiffer_iff_high_ne (a b : U16) : pagesDiffer a b = true ↔ a &&& 0xFF00#16 ≠ b &&& 0xFF00#16 :=
  bne_iff_ne

theorem add_index_toNat (base : U16) (i : Byte) : (base + i.setWidth 16).toNat = (base.toNat + i.toNat) % 65536 := by
  rw [BitVec.toNat_add, BitVec.toNat_setWidth_of_le (by decide)]

theorem and_low_toNat (w : U16) : (w &&& 0x00FF#16).toNat = w.toNat % 256 := by
  rw [and_low, BitVec.toNat_ofNat]
  omega

/-- An index is at most 0xFF, so the page changes exactly with a carry out of the low byte, at the top of the address space too. -/
theorem crossed_iff_low_overflow (base : U16) (i : Byte) : crossed base i = true ↔ (base &&& 0x00FF#16).toNat + i.toNat > 0xFF := by
  have hbase := base.isLt
  have hi := i.isLt
  rw [crossed, pagesDiffer_iff, add_index_toNat, and_low_toNat]
  omega

theorem crossed_zero (base : U16) : crossed base 0 = false := by
  rw [← Bool.not_eq_true, crossed_iff_low_overflow, and_low_toNat, show (0 : Byte).toNat = 0 from rfl]
  omega

/-! ## Pointers (R118 to R120) -/

theorem ofNat_eq_zeroPageAddress {n : Nat} {z : Byte} (h : z.toNat = n) : BitVec.ofNat 16 n = zeroPageAddress z := by
  rw [← h, BitVec.ofNat_toNat, zeroPageAddress]

theorem byte_succ_toNat (z : Byte) : (z + 1).toNat = (z.toNat + 1) % 256 :=
  BitVec.toNat_add ..

theorem address_succ_toNat (w : U16) : (w + 1).toNat = (w.toNat + 1) % 65536 :=
  BitVec.toNat_add ..

theorem loByte_eq_ff_iff (w : U16) : loByte w = 0xFF#8 ↔ w.toNat % 256 = 255 := by
  rw [← BitVec.toNat_inj, loByte_toNat]
  rfl

/-- The page and the low byte share no bit, so the high byte's address is their sum. -/
theorem pointerHighAddress_toNat (w : U16) :
    (pointerHighAddress w).toNat = w.toNat / 256 * 256 + (w.toNat + 1) % 256 := by
  have hw := w.isLt
  have hdisjoint : (w &&& 0xFF00#16) &&& ((w + 1) &&& 0x00FF#16) = 0#16 := by
    rw [BitVec.and_comm (w + 1), BitVec.and_assoc, ← BitVec.and_assoc 0xFF00#16]
    simp
  rw [pointerHighAddress, ← BitVec.add_eq_or_of_and_eq_zero _ _ hdisjoint, BitVec.toNat_add, and_page, and_low_toNat,
    address_succ_toNat, BitVec.toNat_ofNat]
  omega

/-- The high byte of an Indirect pointer: at the pointer's successor, or at the start of the pointer's own page when that is on the next one. -/
theorem pointerHighAddress_eq (w : U16) :
    pointerHighAddress w = if loByte w = 0xFF#8 then w - 0x00FF#16 else w + 1 := by
  have hw := w.isLt
  apply BitVec.eq_of_toNat_eq
  rw [pointerHighAddress_toNat]
  split
  case isTrue hlast =>
    rw [loByte_eq_ff_iff] at hlast
    rw [BitVec.toNat_sub, BitVec.toNat_ofNat]
    omega
  case isFalse hlast =>
    rw [loByte_eq_ff_iff] at hlast
    rw [address_succ_toNat]
    omega

/-! ## Branch targets (R121) -/

/-- Sign extension adds the displacement that the byte says as an integer. -/
theorem branchTarget_toNat (pc : U16) (d : Byte) :
    ((pc + 2 + d.signExtend 16).toNat : Int) =
      ((pc.toNat : Int) + 2 + (if d.toNat < 0x80 then (d.toNat : Int) else (d.toNat : Int) - 256)) % 65536 := by
  rw [BitVec.toNat_add, BitVec.toNat_add, signExtend_toNat, show (2 : U16).toNat = 2 from rfl]
  split
  case isTrue hforward => omega
  case isFalse hbackward => omega

end Sys2Proof.Machine

namespace Sys2Proof.Proofs

open Sys2Proof Sys2Proof.Machine

/-- Settles O20: by the high bytes from the definition, by the low byte as a carry. -/
theorem pageCrossingIsLowByteOverflow : Obligations.PageCrossingIsLowByteOverflow :=
  ⟨fun base i => ⟨pagesDiffer_iff_high_ne base _, crossed_iff_low_overflow base i⟩, rfl, crossed_zero⟩

/-- Settles O21: sign extension adds the displacement; the pages compared are those of PC + 2 and the target (decision D7). -/
theorem relativeTargetIsSignedDisplacement : Obligations.RelativeTargetIsSignedDisplacement :=
  fun s d => ⟨branchTarget_toNat s.pc d, pagesDiffer_iff_high_ne (s.pc + 2) _, rfl⟩

/-- Settles O18, mode by mode: a zero-page sum is one of bytes, an indexed absolute one is of 16-bit values, the rest is the operand as it is. -/
theorem directModesResolve : Obligations.DirectModesResolve := by
  intro s b1 b2 base at_
  have hzeroPage (i : Byte) : (zeroPageAddress (b1 + i)).toNat = (b1.toNat + i.toNat) % 256 := by
    rw [zeroPageAddress_toNat, BitVec.toNat_add]
  have hindexed (i : Byte) : (indexed (word b1 b2) i).ea.toNat = (base + i.toNat) % 65536 ∧
      (indexed (word b1 b2) i).crossed = crossed (BitVec.ofNat 16 base) i := by
    rw [indexed, add_index_toNat, word_toNat, ofNat_eq_word]
    exact ⟨rfl, rfl⟩
  refine ⟨⟨rfl, Eq.symm⟩, ⟨zeroPageAddress_toNat b1, rfl⟩, ⟨hzeroPage s.x, rfl⟩, ⟨hzeroPage s.y, rfl⟩,
    ⟨word_toNat b1 b2, rfl⟩, hindexed s.x, hindexed s.y, ?two, ?three⟩
  case two => simp [Mode.length]
  case three => simp [Mode.length]

/-- Settles O19: Indirect keeps the page of the pointer; in the zero-page modes both addresses of the pointer are sums of bytes. -/
theorem indirectModesResolve : Obligations.IndirectModesResolve := by
  intro s z w
  refine ⟨?indirect, ?indirectX, ?indirectY⟩
  case indirect =>
    rw [← pointerHighAddress_eq]
    rfl
  case indirectX =>
    have hlow : (z + s.x).toNat = (z.toNat + s.x.toNat) % 256 := BitVec.toNat_add ..
    have hhigh : (z + s.x + 1).toNat = (z.toNat + s.x.toNat + 1) % 256 := by
      rw [byte_succ_toNat, hlow, Nat.mod_add_mod]
    rw [ofNat_eq_zeroPageAddress hlow, ofNat_eq_zeroPageAddress hhigh]
    rfl
  case indirectY =>
    rintro base rfl
    rw [ofNat_eq_zeroPageAddress (byte_succ_toNat z), ofNat_eq_zeroPageAddress rfl]
    rfl

end Sys2Proof.Proofs
end

section
/-! Loads and stores (41_load_store.md): R130 with the claims' after-states, and from it each row of R131 to R136 by its operand and base cycles. -/

namespace Sys2Proof.Machine

open Sys2Proof.Claims

/-! ## The outcome of a load and of a store (R130) -/

theorem next_load_a (o : Operand) (base : Nat) (s : State) :
    (.next (load .a o base s) : Host.Outcome State Fault Refusal) =
      .next (toA s (operandValue o s) (BitVec.ofNat 16 o.length) (base + pageCross o s)) :=
  congrArg Host.Outcome.next (load_a_eq o base s)

theorem next_load_x (o : Operand) (base : Nat) (s : State) :
    (.next (load .x o base s) : Host.Outcome State Fault Refusal) =
      .next (toX s (operandValue o s) (BitVec.ofNat 16 o.length) (base + pageCross o s)) :=
  congrArg Host.Outcome.next (load_x_eq o base s)

theorem next_load_y (o : Operand) (base : Nat) (s : State) :
    (.next (load .y o base s) : Host.Outcome State Fault Refusal) =
      .next (toY s (operandValue o s) (BitVec.ofNat 16 o.length) (base + pageCross o s)) :=
  congrArg Host.Outcome.next (load_y_eq o base s)

theorem next_store (r : Reg) (o : Operand) (base : Nat) (s : State) :
    (.next (store r o base s) : Host.Outcome State Fault Refusal) =
      .next (stored s (resolve o s).ea (s.reg r) (BitVec.ofNat 16 o.length) base) :=
  congrArg Host.Outcome.next (store_eq r o base s)

end Sys2Proof.Machine

namespace Sys2Proof.Proofs

open Sys2Proof Sys2Proof.Machine

/-- Settles O23, mode by mode: `exec` loads A from the mode's operand with the row's base cycles, and the resolver says the byte and the crossing. -/
theorem ldaLoadsAccumulator : Obligations.LdaLoadsAccumulator :=
  fun s b w =>
    ⟨next_load_a (.immediate b) 2 s, next_load_a (.zeroPage b) 3 s, next_load_a (.zeroPageX b) 4 s, next_load_a (.absolute w) 4 s,
      next_load_a (.absoluteX w) 4 s, next_load_a (.absoluteY w) 4 s, next_load_a (.indirectX b) 6 s, next_load_a (.indirectY b) 5 s⟩

/-- Settles O24, mode by mode for X and then for Y: each is indexed by the other. -/
theorem ldxAndLdyLoadIndexRegisters : Obligations.LdxAndLdyLoadIndexRegisters :=
  fun s b w =>
    ⟨next_load_x (.immediate b) 2 s, next_load_x (.zeroPage b) 3 s, next_load_x (.zeroPageY b) 4 s, next_load_x (.absolute w) 4 s,
      next_load_x (.absoluteY w) 4 s,
      next_load_y (.immediate b) 2 s, next_load_y (.zeroPage b) 3 s, next_load_y (.zeroPageX b) 4 s, next_load_y (.absolute w) 4 s,
      next_load_y (.absoluteX w) 4 s⟩

/-- Settles O25, mode by mode: the address is the resolver's, and its crossing does not enter the cost. -/
theorem staStoresAccumulator : Obligations.StaStoresAccumulator :=
  fun s b w =>
    ⟨next_store .a (.zeroPage b) 3 s, next_store .a (.zeroPageX b) 4 s, next_store .a (.absolute w) 4 s, next_store .a (.absoluteX w) 5 s,
      next_store .a (.absoluteY w) 5 s, next_store .a (.indirectX b) 6 s, next_store .a (.indirectY b) 6 s⟩

/-- Settles O26, mode by mode for X and then for Y: each is indexed by the other. -/
theorem stxAndStyStoreIndexRegisters : Obligations.StxAndStyStoreIndexRegisters :=
  fun s b w =>
    ⟨next_store .x (.zeroPage b) 3 s, next_store .x (.zeroPageY b) 4 s, next_store .x (.absolute w) 4 s,
      next_store .y (.zeroPage b) 3 s, next_store .y (.zeroPageX b) 4 s, next_store .y (.absolute w) 4 s⟩

end Sys2Proof.Proofs
end

section
/-! Transfers (42_transfer.md): R140 with the claims' after-states for each destination, and from it each row of R141 to R146 by its source. -/

namespace Sys2Proof.Machine

open Sys2Proof.Claims

/-! ## The outcome of a transfer (R140) -/

theorem next_transfer_a (src : Reg) (s : State) :
    (.next (transfer src .a s) : Host.Outcome State Fault Refusal) = .next (toA s (s.reg src) 1 2) :=
  congrArg Host.Outcome.next (transfer_eq src .a s)

theorem next_transfer_x (src : Reg) (s : State) :
    (.next (transfer src .x s) : Host.Outcome State Fault Refusal) = .next (toX s (s.reg src) 1 2) :=
  congrArg Host.Outcome.next (transfer_eq src .x s)

theorem next_transfer_y (src : Reg) (s : State) :
    (.next (transfer src .y s) : Host.Outcome State Fault Refusal) = .next (toY s (s.reg src) 1 2) :=
  congrArg Host.Outcome.next (transfer_eq src .y s)

/-- Into S no flag is set: P is that of `passed`, the old one. -/
theorem next_transferToStack (src : Reg) (s : State) :
    (.next (transferToStack src s) : Host.Outcome State Fault Refusal) = .next { passed s 1 2 with s := s.reg src } :=
  congrArg Host.Outcome.next (transferToStack_eq src s)

end Sys2Proof.Machine

namespace Sys2Proof.Proofs

open Sys2Proof Sys2Proof.Machine

/-- Settles O27, row by row: `exec` is the transfer from the row's source, flags from the copied value but for TXS; the cycles are those of decision D3. -/
theorem transfersCopyARegister : Obligations.TransfersCopyARegister :=
  fun s =>
    ⟨next_transfer_x .a s, next_transfer_y .a s, next_transfer_x .s s, next_transfer_a .x s, next_transferToStack .x s,
      next_transfer_a .y s⟩

end Sys2Proof.Proofs
end

section
/-! Increment and decrement (43_incdec.md): R150 with the claims' after-states, and that INC and DEC of one byte undo each other. -/

namespace Sys2Proof.Machine

open Sys2Proof.Claims

/-! ## The arithmetic (R150) -/

theorem inc8_eq_ofNat (v : Byte) : inc8 v = BitVec.ofNat 8 (v.toNat + 1) := by
  rw [BitVec.ofNat_add, BitVec.ofNat_toNat, BitVec.setWidth_eq]
  rfl

theorem dec8_eq_ofNat (v : Byte) : dec8 v = BitVec.ofNat 8 (v.toNat + 255) := by
  rw [BitVec.ofNat_add, BitVec.ofNat_toNat, BitVec.setWidth_eq]
  rfl

theorem dec8_leftInverse_inc8 : Function.LeftInverse dec8 inc8 := fun v => by
  rw [dec8, inc8, BitVec.add_assoc]
  exact BitVec.add_zero v

theorem inc8_leftInverse_dec8 : Function.LeftInverse inc8 dec8 := fun v => by
  rw [dec8, inc8, BitVec.add_assoc]
  exact BitVec.add_zero v

/-! ## The outcome of the memory form and of the register form (R150) -/

theorem next_modifyMemory (f : Byte → Byte) (o : Operand) (base : Nat) (s : State) :
    (.next (modifyMemory f o base s) : Host.Outcome State Fault Refusal) =
      .next (replaced s (resolve o s).ea (f (s.read (resolve o s).ea)) (BitVec.ofNat 16 o.length) base) :=
  congrArg Host.Outcome.next (modifyMemory_eq f o base s)

theorem next_modifyRegister_x (f : Byte → Byte) (s : State) :
    (.next (modifyRegister f .x s) : Host.Outcome State Fault Refusal) = .next (toX s (f s.x) 1 2) :=
  congrArg Host.Outcome.next (modifyRegister_eq f .x s)

theorem next_modifyRegister_y (f : Byte → Byte) (s : State) :
    (.next (modifyRegister f .y s) : Host.Outcome State Fault Refusal) = .next (toY s (f s.y) 1 2) :=
  congrArg Host.Outcome.next (modifyRegister_eq f .y s)

/-! ## Two memory forms in a row at one address -/

variable {f g : Byte → Byte} {o : Operand} {s : State} {i j : Instr} {base : Nat}

/-- An operand whose address depends on no more of the state than X, as in the four modes of INC and DEC (R151, R152). -/
def ResolvesByX (o : Operand) : Prop := ∀ s t : State, t.x = s.x → resolve o t = resolve o s

theorem resolvesByX_zeroPage (z : Byte) : ResolvesByX (.zeroPage z) := fun _ _ _ => rfl

theorem resolvesByX_zeroPageX (z : Byte) : ResolvesByX (.zeroPageX z) := fun _ _ h => by simp only [resolve, h]

theorem resolvesByX_absolute (w : U16) : ResolvesByX (.absolute w) := fun _ _ _ => rfl

theorem resolvesByX_absoluteX (w : U16) : ResolvesByX (.absoluteX w) := fun _ _ h => by simp only [resolve, h]

theorem resolve_modifyMemory (ho : ResolvesByX o) (f : Byte → Byte) (base : Nat) (s : State) :
    resolve o (modifyMemory f o base s) = resolve o s :=
  ho s _ (modifyMemory_reg f o base s .x)

/-- Every address of the modified element, mirrors included, reads the new byte (R58). -/
theorem modifyMemory_read_same {a : U16} (h : route (resolve o s).ea = route a) (hs : route (resolve o s).ea ≠ .openBus)
    (f : Byte → Byte) (base : Nat) : (modifyMemory f o base s).read a = f (s.read (resolve o s).ea) := by
  rw [modifyMemory_eq]
  exact State.read_write_same h hs

/-- A read looks at the routed element alone. -/
theorem State.read_congr_route {a b : U16} (h : route a = route b) (s : State) : s.read a = s.read b := by
  simp only [State.read, h]

/-- A memory form and then one of the inverse function restore every byte: the element's own by the inverse, the others as neither writes them. -/
theorem modifyMemory_inverse_read (hgf : Function.LeftInverse g f) (ho : ResolvesByX o) (hs : route (resolve o s).ea ≠ .openBus) (a : U16) :
    (modifyMemory g o base (modifyMemory f o base s)).read a = s.read a := by
  have hea := resolve_modifyMemory ho f base s
  by_cases ha : route (resolve o s).ea = route a
  · rw [modifyMemory_read_same (by rwa [hea]) (by rwa [hea]), hea, modifyMemory_read_same rfl hs, hgf, State.read_congr_route ha]
  · rw [modifyMemory_read_other (by rwa [hea]), modifyMemory_read_other ha]

/-- The flags are those of the second form, whose new byte is the old one. -/
theorem modifyMemory_inverse_p (hgf : Function.LeftInverse g f) (ho : ResolvesByX o) (hs : route (resolve o s).ea ≠ .openBus) :
    (modifyMemory g o base (modifyMemory f o base s)).p = setNZ s.p (s.read (resolve o s).ea) := by
  rw [modifyMemory_p, resolve_modifyMemory ho, modifyMemory_read_same rfl hs, hgf, modifyMemory_p, setNZ_setNZ]

/-- Two instructions that are inverse memory forms on one operand, with storage at its address. -/
theorem exec_inverse_restores {ea : U16} (hgf : Function.LeftInverse g f) (ho : ResolvesByX o) (hea : (resolve o s).ea = ea)
    (hs : ea.toNat < 0x4018) (hi : exec i s = .next (modifyMemory f o base s)) (hj : ∀ t, exec j t = .next (modifyMemory g o base t)) :
    ∃ t u, exec i s = .next t ∧ exec j t = .next u ∧ (∀ a, u.read a = s.read a) ∧ u.p = setNZ s.p (s.read ea) := by
  subst hea
  have hroute := route_ne_openBus hs
  exact ⟨_, _, hi, hj _, modifyMemory_inverse_read hgf ho hroute, modifyMemory_inverse_p hgf ho hroute⟩

end Sys2Proof.Machine

namespace Sys2Proof.Proofs

open Sys2Proof Sys2Proof.Machine

/-- Settles O28, mode by mode: `exec` applies `inc8` or `dec8` at the mode's address with the row's cycles, and a crossing does not enter the cost. -/
theorem incAndDecModifyMemory : Obligations.IncAndDecModifyMemory := by
  intro s b w up down
  simp only [up, down, ← inc8_eq_ofNat, ← dec8_eq_ofNat]
  exact ⟨next_modifyMemory inc8 (.zeroPage b) 5 s, next_modifyMemory inc8 (.zeroPageX b) 6 s,
    next_modifyMemory inc8 (.absolute w) 6 s, next_modifyMemory inc8 (.absoluteX w) 7 s,
    next_modifyMemory dec8 (.zeroPage b) 5 s, next_modifyMemory dec8 (.zeroPageX b) 6 s,
    next_modifyMemory dec8 (.absolute w) 6 s, next_modifyMemory dec8 (.absoluteX w) 7 s⟩

/-- Settles O29, row by row: `exec` applies `inc8` or `dec8` to the row's register; the cycles are those of decision D3 but for INX. -/
theorem registerIncrementAndDecrement : Obligations.RegisterIncrementAndDecrement := by
  intro s
  simp only [← inc8_eq_ofNat, ← dec8_eq_ofNat]
  exact ⟨next_modifyRegister_x inc8 s, next_modifyRegister_y inc8 s, next_modifyRegister_x dec8 s, next_modifyRegister_y dec8 s⟩

/-- Settles O30, pair by pair: `inc8` and `dec8` undo each other, and the second instruction resolves to the address of the first, since X is kept. -/
theorem incThenDecRestoresTheByte : Obligations.IncThenDecRestoresTheByte := by
  intro s b w i j ea hpair hs
  simp only [List.mem_cons, Prod.mk.injEq, List.not_mem_nil, or_false] at hpair
  obtain ⟨rfl, rfl, rfl⟩ | ⟨rfl, rfl, rfl⟩ | ⟨rfl, rfl, rfl⟩ | ⟨rfl, rfl, rfl⟩ | ⟨rfl, rfl, rfl⟩ | ⟨rfl, rfl, rfl⟩ |
    ⟨rfl, rfl, rfl⟩ | ⟨rfl, rfl, rfl⟩ := hpair
  · exact exec_inverse_restores dec8_leftInverse_inc8 (resolvesByX_zeroPage _) rfl hs rfl fun _ => rfl
  · exact exec_inverse_restores dec8_leftInverse_inc8 (resolvesByX_zeroPageX _) rfl hs rfl fun _ => rfl
  · exact exec_inverse_restores dec8_leftInverse_inc8 (resolvesByX_absolute _) rfl hs rfl fun _ => rfl
  · exact exec_inverse_restores dec8_leftInverse_inc8 (resolvesByX_absoluteX _) rfl hs rfl fun _ => rfl
  · exact exec_inverse_restores inc8_leftInverse_dec8 (resolvesByX_zeroPage _) rfl hs rfl fun _ => rfl
  · exact exec_inverse_restores inc8_leftInverse_dec8 (resolvesByX_zeroPageX _) rfl hs rfl fun _ => rfl
  · exact exec_inverse_restores inc8_leftInverse_dec8 (resolvesByX_absolute _) rfl hs rfl fun _ => rfl
  · exact exec_inverse_restores inc8_leftInverse_dec8 (resolvesByX_absoluteX _) rfl hs rfl fun _ => rfl

end Sys2Proof.Proofs
end

section
/-! Jump and branches (44_jump_branch.md): R160 and R161 with the claims' after-states, and from them each row by its operand or its flag. -/

namespace Sys2Proof.Machine

open Sys2Proof.Claims

/-! ## The outcome of a jump (R160) -/

theorem next_jump (o : Operand) (base : Nat) (s : State) :
    (.next (jump o base s) : Host.Outcome State Fault Refusal) =
      .next { s with pc := (resolve o s).ea, remainingCycles := base - 1 } :=
  congrArg Host.Outcome.next (jump_eq o base s)

theorem resolve_indirect_ea (w : U16) (s : State) :
    (resolve (.indirect w) s).ea = word (s.read (if loByte w = 0xFF#8 then w - 0x00FF#16 else w + 1)) (s.read w) := by
  rw [← pointerHighAddress_eq]
  rfl

/-! ## The outcome of a branch (R161, R207) -/

/-- A taken branch owes a cycle for a target on another page than the next instruction's (decision D7). -/
theorem pageCross_relative (d : Byte) (s : State) :
    pageCross (.relative d) s =
      if (s.pc + 2) &&& 0xFF00#16 = (s.pc + 2 + d.signExtend 16) &&& 0xFF00#16 then 0 else 1 := by
  rw [pageCross, resolve]
  split
  case isTrue hsame => rw [show pagesDiffer _ _ = false from bne_eq_false_iff_eq.mpr hsame, Bool.toNat_false]
  case isFalse hother => rw [(pagesDiffer_iff_high_ne _ _).mpr hother, Bool.toNat_true]

theorem branch_eq_branched (taken : Bool) (d : Byte) (s : State) : branch taken d s = branched s taken d := by
  cases taken with
  | false => exact branch_not_taken d s
  | true =>
    rw [branch_taken, pageCross_relative, Nat.sub_add_comm (by decide : 1 ≤ 3), add_ite]
    rfl

theorem next_branch (taken : Bool) (d : Byte) (s : State) :
    (.next (branch taken d s) : Host.Outcome State Fault Refusal) = .next (branched s taken d) :=
  congrArg Host.Outcome.next (branch_eq_branched taken d s)

end Sys2Proof.Machine

namespace Sys2Proof.Proofs

open Sys2Proof Sys2Proof.Machine

/-- Settles O31: `exec` is the jump to the resolver's address, which for Indirect stays inside the pointer's page; the cycles are those of decision D3. -/
theorem jmpSetsProgramCounter : Obligations.JmpSetsProgramCounter := by
  intro s w
  rw [← resolve_indirect_ea]
  exact ⟨next_jump (.absolute w) 3 s, next_jump (.indirect w) 5 s⟩

/-- Settles O32, row by row: `exec` is the branch on the row's flag or on its complement. -/
theorem branchesTestOneFlag : Obligations.BranchesTestOneFlag :=
  fun s d =>
    ⟨next_branch (!s.flag .c) d s, next_branch (s.flag .c) d s, next_branch (s.flag .z) d s, next_branch (!s.flag .z) d s,
      next_branch (s.flag .n) d s, next_branch (!s.flag .n) d s, next_branch (!s.flag .v) d s, next_branch (s.flag .v) d s⟩

end Sys2Proof.Proofs
end

section
/-! ADC and SBC (45_arith.md): the addition with the claims' after-state, and what its carry and its overflow say about A and the byte read as
numbers. -/

namespace Sys2Proof.Machine

open Sys2Proof.Claims

/-! ## The outcome of an addition (R180) -/

theorem addToA_eq_summed (n : Byte) (o : Operand) (base : Nat) (s : State) :
    addToA n o base s = summed s n (BitVec.ofNat 16 o.length) (base + pageCross o s) :=
  addToA_eq n o base s

theorem next_adc (o : Operand) (base : Nat) (s : State) :
    (.next (adc o base s) : Host.Outcome State Fault Refusal) =
      .next (summed s (operandValue o s) (BitVec.ofNat 16 o.length) (base + pageCross o s)) :=
  congrArg Host.Outcome.next (addToA_eq_summed (operandValue o s) o base s)

theorem next_sbc (o : Operand) (base : Nat) (s : State) :
    (.next (sbc o base s) : Host.Outcome State Fault Refusal) =
      .next (summed s (operandValue o s ^^^ 0xFF#8) (BitVec.ofNat 16 o.length) (base + pageCross o s)) :=
  congrArg Host.Outcome.next (addToA_eq_summed (operandValue o s ^^^ 0xFF#8) o base s)

/-! ## Signed overflow (R181) -/

/-- Both terms differ from the result in the sign bit. -/
theorem addOverflow_eq_sign_bits (a n : Byte) (c : Bool) :
    addOverflow a n c =
      ((a.getLsbD 7 ^^ (addResult a n c).getLsbD 7) && (n.getLsbD 7 ^^ (addResult a n c).getLsbD 7)) := by
  rw [addOverflow, and_0x80_ne_zero, BitVec.getLsbD_and, BitVec.getLsbD_xor, BitVec.getLsbD_xor]

theorem addOverflow_iff (a n : Byte) (c : Bool) :
    addOverflow a n c = true ↔ a.toInt + n.toInt + c.toNat < -128 ∨ 127 < a.toInt + n.toInt + c.toNat := by
  have hresult := addResult_toNat a n c
  have hcarry := Bool.toNat_le c
  rw [addOverflow_eq_sign_bits, BitVec.toInt_eq_toNat_cond, BitVec.toInt_eq_toNat_cond]
  simp only [getLsbD_seven, Bool.and_eq_true, bne_iff_ne, ne_eq, decide_eq_decide]
  omega

/-! ## The one's complement (R182) -/

theorem toNat_xor_ff (m : Byte) : (m ^^^ 0xFF#8).toNat = 255 - m.toNat := by
  rw [show m ^^^ 0xFF#8 = ~~~m from BitVec.xor_allOnes, BitVec.toNat_not]

theorem toInt_xor_ff (m : Byte) : (m ^^^ 0xFF#8).toInt = -1 - m.toInt := by
  rw [BitVec.toInt_eq_toNat_cond, BitVec.toInt_eq_toNat_cond, toNat_xor_ff]
  omega

/-- The overflow of a subtraction: A differs in the sign bit from the subtrahend and from the result (the second formula of R182). -/
theorem addOverflow_xor_ff (a m : Byte) (c : Bool) :
    addOverflow a (m ^^^ 0xFF#8) c = (((a ^^^ m) &&& (a ^^^ addResult a (m ^^^ 0xFF#8) c) &&& 0x80#8) != 0) := by
  rw [addOverflow_eq_sign_bits, and_0x80_ne_zero]
  simp only [BitVec.getLsbD_and, BitVec.getLsbD_xor]
  generalize (addResult a (m ^^^ 0xFF#8) c).getLsbD 7 = r
  cases a.getLsbD 7 <;> cases m.getLsbD 7 <;> cases r <;> rfl

/-! ## The accumulator and the flags after an addition -/

section
variable (n : Byte) (o : Operand) (base : Nat) (s : State)

theorem addToA_a : (addToA n o base s).a = addResult s.a n (s.flag .c) := rfl

theorem flag_c_addToA : (addToA n o base s).flag .c = addCarry s.a n (s.flag .c) := getLsbD_addFlags ..

theorem flag_v_addToA : (addToA n o base s).flag .v = addOverflow s.a n (s.flag .c) := getLsbD_addFlags ..

theorem flag_n_addToA_iff : (addToA n o base s).flag .n = true ↔ 0x80 ≤ (addToA n o base s).a.toNat := by
  rw [show (addToA n o base s).flag .n = decide _ from getLsbD_addFlags .., decide_eq_true_iff]
  rfl

theorem flag_z_addToA_iff : (addToA n o base s).flag .z = true ↔ (addToA n o base s).a = 0 := by
  rw [show (addToA n o base s).flag .z = decide _ from getLsbD_addFlags .., decide_eq_true_iff]
  rfl

end

end Sys2Proof.Machine

namespace Sys2Proof.Proofs

open Sys2Proof Sys2Proof.Machine

/-- Settles O33, mode by mode: `exec` adds the mode's operand with the row's base cycles, and the resolver says the byte and the crossing. -/
theorem adcAddsWithCarry : Obligations.AdcAddsWithCarry :=
  fun s b w =>
    ⟨next_adc (.immediate b) 2 s, next_adc (.zeroPage b) 3 s, next_adc (.zeroPageX b) 4 s, next_adc (.absolute w) 4 s,
      next_adc (.absoluteX w) 4 s, next_adc (.absoluteY w) 4 s, next_adc (.indirectX b) 6 s, next_adc (.indirectY b) 5 s⟩

/-- Settles O34, mode by mode as for ADC, the operand complemented. -/
theorem sbcSubtractsWithBorrow : Obligations.SbcSubtractsWithBorrow :=
  fun s b w =>
    ⟨next_sbc (.immediate b) 2 s, next_sbc (.zeroPage b) 3 s, next_sbc (.zeroPageX b) 4 s, next_sbc (.absolute w) 4 s,
      next_sbc (.absoluteX w) 4 s, next_sbc (.absoluteY w) 4 s, next_sbc (.indirectX b) 6 s, next_sbc (.indirectY b) 5 s⟩

/-- Settles O35, part by part: the sum, its carry, and its signed overflow by the sign bits of the two terms. -/
theorem adcFlagsReportOverflow : Obligations.AdcFlagsReportOverflow := by
  intro s m
  refine ⟨addToA m (.immediate m) 2 s, rfl, addResult_toNat .., ?carry, ?overflow, flag_n_addToA_iff .., flag_z_addToA_iff ..⟩
  case carry => rw [flag_c_addToA, addCarry_iff]
  case overflow => rw [flag_v_addToA, addOverflow_iff]

/-- Settles O36, part by part from the addition of the one's complement, which is 255 - m unsigned and -1 - m signed. -/
theorem sbcIsSubtractionWithBorrow : Obligations.SbcIsSubtractionWithBorrow := by
  intro s m
  refine ⟨addToA (m ^^^ 0xFF#8) (.immediate m) 2 s, rfl, ?difference, ?carry, ?overflow, ?secondFormula, flag_n_addToA_iff ..,
    flag_z_addToA_iff ..⟩
  case difference =>
    rw [addToA_a, addResult_toNat, toNat_xor_ff]
    omega
  case carry =>
    rw [flag_c_addToA, addCarry_iff, toNat_xor_ff]
    omega
  case overflow =>
    rw [flag_v_addToA, addOverflow_iff, toInt_xor_ff]
    omega
  case secondFormula => rw [flag_v_addToA, addOverflow_xor_ff, addToA_a]

end Sys2Proof.Proofs
end

section
/-! Stack and subroutine (46_stack_subroutine.md): a push, a pull, a call and a return with the claims' after-states, and that a pull undoes a push. -/

namespace Sys2Proof.Machine

open Sys2Proof.Claims

/-! ## The outcome of a push, of a pull, of a call and of a return (R190, R191, R196 to R198) -/

theorem next_push (v : Byte) (s : State) :
    (.next ((s.push v).advance 1 3) : Host.Outcome State Fault Refusal) =
      .next { stored s (stackAddress s.s) v 1 3 with s := s.s - 1 } := by
  rw [State.advance, State.push_pc]
  rfl

theorem next_pull_a (s : State) :
    (.next (((s.afterPull.setReg .a s.pulled).setNZ s.pulled).advance 1 4) : Host.Outcome State Fault Refusal) =
      .next { toA s s.pulled 1 4 with s := s.s + 1 } := rfl

theorem next_pull_p (s : State) :
    (.next ((s.afterPull.setStatus s.pulled).advance 1 4) : Host.Outcome State Fault Refusal) =
      .next { passed s 1 4 with s := s.s + 1, p := s.pulled &&& 0xCF#8 } := rfl

theorem next_callSubroutine (target : U16) (base : Nat) (s : State) :
    (.next (callSubroutine target base s) : Host.Outcome State Fault Refusal) =
      .next { (s.write (stackAddress s.s) (hiByte (s.pc + 2))).write (stackAddress (s.s - 1)) (loByte (s.pc + 2)) with
        s := s.s - 2, pc := target, remainingCycles := base - 1 } := by
  rw [callSubroutine_eq, sub_sub]
  rfl

theorem next_returnFromSubroutine (base : Nat) (s : State) :
    (.next (returnFromSubroutine base s) : Host.Outcome State Fault Refusal) =
      .next { s with
        s := s.s + 2, pc := word (s.read (stackAddress (s.s + 2))) (s.read (stackAddress (s.s + 1))) + 1,
        remainingCycles := base - 1 } := by
  rw [returnFromSubroutine_eq, BitVec.add_assoc]
  rfl

theorem next_returnFromInterrupt (base : Nat) (s : State) :
    (.next (returnFromInterrupt base s) : Host.Outcome State Fault Refusal) =
      .next { s with
        s := s.s + 3, p := s.read (stackAddress (s.s + 1)) &&& 0xCF#8,
        pc := word (s.read (stackAddress (s.s + 3))) (s.read (stackAddress (s.s + 2))), remainingCycles := base - 1 } := by
  rw [returnFromInterrupt_eq, BitVec.add_assoc s.s 1 1, BitVec.add_assoc]
  rfl

/-! ## A pull after a push (R191); `State.pulled_push` says which byte it returns -/

variable {s t : State}

theorem State.afterPull_push_s (s : State) (v : Byte) : (s.push v).afterPull.s = s.s :=
  BitVec.sub_add_cancel s.s 1

/-- The stack lies in RAM (R26), so a pull looks at nothing but RAM and S. -/
theorem State.pulled_congr (hs : s.s = t.s) (hram : s.ram = t.ram) : s.pulled = t.pulled := by
  have haddr := stackAddress_toNat (t.s + 1)
  rw [State.pulled, State.pulled, hs]
  exact State.read_congr_ram hram (by omega)

/-- A pushed byte does not hide the one beneath it: the second pull after the push returns what a pull before it would have. -/
theorem State.pulled_afterPull_push (s : State) (v : Byte) : (s.push v).afterPull.pulled = s.pulled := by
  have hother : route (stackAddress s.s) ≠ route (stackAddress (s.s + 1)) := fun h => by
    simpa using route_stackAddress_inj h
  rw [State.pulled, State.afterPull_push_s]
  exact State.read_push_other hother v

/-! ## PHP then PLP (R193, R195) -/

/-- What PLP keeps of the byte that PHP pushes, where the two hard-wired bits are 0 (R32, decision D9). -/
theorem or_reserved_and_flags {p : Byte} (h : p &&& 0x30#8 = 0) : (p ||| 0x30#8) &&& 0xCF#8 = p := by
  calc (p ||| 0x30#8) &&& 0xCF#8
      = (p &&& 0xCF#8) ||| (0x30#8 &&& 0xCF#8) := BitVec.and_or_distrib_right
    _ = (p &&& 0xCF#8) ||| (p &&& 0x30#8) := by rw [h]; rfl
    _ = p &&& (0xCF#8 ||| 0x30#8) := BitVec.and_or_distrib_left.symm
    _ = p := BitVec.and_allOnes

/-! ## JSR then RTS (R196, R197) -/

/-- The two pulls of a return, in a state with the RAM and the S that the call left, give back the address that the call pushed. -/
theorem word_pulled_of_callSubroutine {target : U16} {base : Nat} (hs : t.s = (callSubroutine target base s).s)
    (hram : t.ram = (callSubroutine target base s).ram) : word t.afterPull.pulled t.pulled = s.pc + 2 := by
  have hlow : t.pulled = loByte (s.pc + 2) :=
    calc t.pulled
        = (callSubroutine target base s).pulled := State.pulled_congr hs hram
      _ = loByte (s.pc + 2) := State.pulled_push ..
  have hhigh : t.afterPull.pulled = hiByte (s.pc + 2) :=
    calc t.afterPull.pulled
        = (callSubroutine target base s).afterPull.pulled := State.pulled_congr (congrArg (· + 1) hs) hram
      _ = (s.push (hiByte (s.pc + 2))).pulled := State.pulled_afterPull_push ..
      _ = hiByte (s.pc + 2) := State.pulled_push ..
  rw [hlow, hhigh, word_hiByte_loByte]

end Sys2Proof.Machine

namespace Sys2Proof.Proofs

open Sys2Proof Sys2Proof.Machine

/-- Settles O37: both are a push, of A and of P with bits 5 and 4 set; the cycles are those of decision D3. -/
theorem pushesWriteThenDecrement : Obligations.PushesWriteThenDecrement :=
  fun s => ⟨next_push s.a s, next_push (s.p ||| 0x30#8) s⟩

/-- Settles O38: both are a pull, into A and into P. -/
theorem pullsIncrementThenRead : Obligations.PullsIncrementThenRead :=
  fun s => ⟨next_pull_a s, next_pull_p s⟩

/-- Settles O39: the call of R196 to the operand's address; its return address is decision D10. -/
theorem jsrPushesReturnAddress : Obligations.JsrPushesReturnAddress :=
  fun s w => next_callSubroutine w 6 s

/-- Settles O40: the returns of R197 and R198; only RTS adds 1. -/
theorem returnsPullTheProgramCounter : Obligations.ReturnsPullTheProgramCounter :=
  fun s => ⟨next_returnFromSubroutine 6 s, next_returnFromInterrupt 6 s⟩

/-- Settles O41: PLP pulls the byte that PHP pushed, and of it keeps P. -/
theorem pullUndoesPush : Obligations.PullUndoesPush := by
  intro s v
  refine ⟨State.pulled_push s v, State.afterPull_push_s s v, fun hp => ⟨_, _, rfl, rfl, ?p, ?s, ?pc⟩⟩
  case p =>
    have hpulled : (s.push (s.p ||| 0x30#8)).pulled = s.p ||| 0x30#8 := State.pulled_push ..
    exact (congrArg (· &&& 0xCF#8) hpulled).trans (or_reserved_and_flags hp)
  case s => exact State.afterPull_push_s s (s.p ||| 0x30#8)
  case pc =>
    simp only [State.advance_pc, State.setStatus_pc, State.afterPull_pc, State.push_pc]
    exact BitVec.add_assoc s.pc 1 1

/-- Settles O42: RTS pulls the address of the last byte of JSR and adds 1; each of its two pulls undoes a push. -/
theorem rtsReturnsAfterJsr : Obligations.RtsReturnsAfterJsr := by
  refine fun s w => ⟨_, rfl, fun u hs hram => ⟨_, rfl, ?pc, ?s⟩⟩
  case pc =>
    calc word u.afterPull.pulled u.pulled + 1
        = s.pc + 2 + 1 := congrArg (· + 1) (word_pulled_of_callSubroutine hs hram)
      _ = s.pc + 3 := BitVec.add_assoc ..
  case s =>
    calc u.s + 1 + 1
        = s.s - 1 - 1 + 1 + 1 := by rw [hs]; rfl
      _ = s.s := by rw [BitVec.sub_add_cancel, BitVec.sub_add_cancel]

end Sys2Proof.Proofs
end

section
/-! The tick and the step (47_dispatch.md R200 to R204): the two kinds of tick, that each has a next state, and runs of ticks. -/

namespace Sys2Proof.Machine

open Sys2Proof.Claims

variable {s t s' : State}

theorem tick_of_owed (h : 0 < s.remainingCycles) : tick s = .next s.drain :=
  if_pos h

theorem tick_of_boundary (h : s.remainingCycles = 0) : tick s = exec s.fetched s :=
  if_neg (by omega)

theorem step_of_tick (h : tick s = .next t) : step s = .next t.gap := by
  simp only [step, h]

/-- An outcome is one next state at most. -/
theorem next_unique {outcome : Host.Outcome State Fault Refusal} (h : outcome = .next s) (h' : outcome = .next t) : s = t :=
  Host.Outcome.next.inj (h.symm.trans h')

/-- A drain tick counts down, a fetch tick executes, and every instruction has an effect. -/
theorem exists_tick (s : State) : ∃ t, tick s = .next t := by
  obtain hboundary | howed := Nat.eq_zero_or_pos s.remainingCycles
  · obtain ⟨_, hexec⟩ := exec_effect s.fetched
    obtain ⟨t, ht, _⟩ := hexec s
    exact ⟨t, (tick_of_boundary hboundary).trans ht⟩
  · exact ⟨s.drain, tick_of_owed howed⟩

/-- A step is a tick and then the gap (R65). -/
theorem exists_tick_of_step (h : step s = .next s') : ∃ t, tick s = .next t ∧ s' = t.gap := by
  obtain ⟨t, ht⟩ := exists_tick s
  exact ⟨t, ht, next_unique h (step_of_tick ht)⟩

/-- The bytes at PC decode to the fetched instruction: three bytes are enough for every row (30_encoding.md R89). -/
theorem decode_bytesAtPc (s : State) : decode (bytesAtPc s) = .ok s.fetched :=
  decode_three ..

/-! ## Runs of ticks -/

theorem runTicks_succ (h : tick s = .next t) (k : Nat) : runTicks (k + 1) s = runTicks k t := by
  simp only [runTicks, h]

theorem runTicks_of_fixed (h : tick s = .next s) (k : Nat) : runTicks k s = .next s := by
  induction k with
  | zero => rfl
  | succ k ih => rw [runTicks_succ h, ih]

/-- While cycles are owed a run only counts them down (R204). -/
theorem runTicks_drain {k : Nat} (h : k ≤ s.remainingCycles) :
    runTicks k s = .next { s with remainingCycles := s.remainingCycles - k } := by
  induction k generalizing s with
  | zero => rfl
  | succ k ih =>
    have hrest : k ≤ s.drain.remainingCycles := by rw [State.drain_remainingCycles]; omega
    have hcount : s.drain.remainingCycles - k = s.remainingCycles - (k + 1) := by rw [State.drain_remainingCycles]; omega
    rw [runTicks_succ (tick_of_owed (by omega)), ih hrest, hcount]
    rfl

theorem parked_iff : s.parked = true ↔ s.remainingCycles = 0 ∧ s.fetched.mnemonic = .unmapped := by
  simp [State.parked, State.atBoundary]

/-- An unmapped byte executes to nothing (R203, decision D2). -/
theorem exec_of_unmapped {i : Instr} (h : i.mnemonic = .unmapped) (s : State) : exec i s = .next s := by
  rw [Instr.eq_unmapped_of_mnemonic h]
  rfl

end Sys2Proof.Machine

namespace Sys2Proof.Proofs

open Sys2Proof Sys2Proof.Machine

/-- Settles O47: the decoded instruction is the fetched one, and the step is the tick and the gap. -/
theorem stepRunsTheDecodedInstruction : Obligations.StepRunsTheDecodedInstruction := by
  refine fun s => ⟨fun i hboundary hdecode => ?_, fun howed => step_of_tick (tick_of_owed howed)⟩
  obtain rfl : s.fetched = i := Except.ok.inj ((decode_bytesAtPc s).symm.trans hdecode)
  have htick := tick_of_boundary hboundary
  obtain ⟨t, ht⟩ := exists_tick s
  exact ⟨htick, t, htick.symm.trans ht, step_of_tick ht⟩

/-- Settles O48. -/
theorem drainTickOnlyCountsDown : Obligations.DrainTickOnlyCountsDown :=
  fun _ howed => tick_of_owed howed

/-- Settles O49: a parked state is a fixed point of the tick. -/
theorem unmappedOpcodeParks : Obligations.UnmappedOpcodeParks := by
  refine ⟨fun op s => exec_of_unmapped rfl s, fun s hparked => runTicks_of_fixed ?_⟩
  obtain ⟨hboundary, hunmapped⟩ := parked_iff.mp hparked
  rw [tick_of_boundary hboundary, exec_of_unmapped hunmapped]

/-- Settles O50. -/
theorem everyStepCompletes : Obligations.EveryStepCompletes := fun s =>
  let ⟨t, ht⟩ := exists_tick s
  ⟨⟨t, ht⟩, t.gap, step_of_tick ht⟩

end Sys2Proof.Proofs
end

section
/-! The cycles of an instruction (47_dispatch.md R205 to R209): the figures of the meanings are those of the table by class and mode, and the ticks they buy. -/

namespace Sys2Proof.Machine

variable {base : Nat} {s t : State} {m : Mnemonic} {c : CostClass} {o : Operand} {i : Instr}

/-! ## The table -/

/-- The cycles that R206 and R207 add to the base cost of a row: one for a page crossing of the read class, one or two for a taken branch. -/
def extraCycles (c : CostClass) (m : Mnemonic) (o : Operand) (s : State) : Nat :=
  (readCrossing c o s).toNat + if branchTaken s m then 1 + (resolve o s).crossed.toNat else 0

/-- The most that R206 and R207 can add in a class. -/
def maxExtraCycles : CostClass → Nat
  | .read => 1
  | .branch => 2
  | .write | .rmw | .implied | .jump | .push | .pull | .jsr | .rts | .rti => 0

theorem extraCycles_le (hc : costClass m = some c) (o : Operand) (s : State) : extraCycles c m o s ≤ maxExtraCycles c := by
  cases m with
  | unmapped => cases hc
  | lda | ldx | ldy | adc | sbc =>
    cases hc
    exact Bool.toNat_le (readCrossing .read o s)
  | bcc | bcs | beq | bne | bmi | bpl | bvc | bvs =>
    cases hc
    have hcrossed := (resolve o s).crossed.toNat_le
    rw [extraCycles, show readCrossing .branch o s = false from rfl, Bool.toNat_false, maxExtraCycles]
    split <;> omega
  | _ =>
    cases hc
    exact le_rfl

/-- No cell of R205 leaves 2..7, also with what can be added to it. -/
theorem baseCost_bounds (c : CostClass) (mode : Mode) : ∀ b ∈ baseCost c mode, 2 ≤ b ∧ b + maxExtraCycles c ≤ 7 := by
  cases c <;> cases mode <;> decide

theorem cost_eq (ho : i.operand = some o) (hc : costClass i.mnemonic = some c) (hbase : baseCost c o.mode = some base) (s : State) :
    cost i s = some (base + extraCycles c i.mnemonic o s) := by
  simp only [cost, ho, hc, hbase, Option.map_some, extraCycles, Nat.add_assoc]

theorem cost_of_unmapped (h : i.mnemonic = .unmapped) (s : State) : cost i s = none := by
  simp only [cost, (Instr.operand_eq_none_iff i).mpr h]

/-! ## The meanings -/

/-- Only Relative crosses a page without owing a read-class cycle for it (R206, R207). -/
theorem pageCross_eq_readCrossing (h : readCost o.mode = some base) (s : State) : pageCross o s = (readCrossing .read o s).toNat := by
  cases o with
  | relative d => cases h
  | _ => rfl

theorem branch_remainingCycles (taken : Bool) (d : Byte) (s : State) :
    (branch taken d s).remainingCycles = 2 + (0 + if taken then 1 + (resolve (.relative d) s).crossed.toNat else 0) - 1 := by
  cases taken with
  | false => rfl
  | true =>
    show 3 + pageCross (.relative d) s - 1 = 2 + (0 + (1 + pageCross (.relative d) s)) - 1
    omega

/-- The base cycles of every row's meaning are the table's, for its class and mode (R205). -/
theorem exec_effect_baseCost (h : i.mnemonic ≠ .unmapped) :
    ∃ o c base, i.operand = some o ∧ costClass i.mnemonic = some c ∧ baseCost c o.mode = some base ∧
      ∀ s, ∃ t, exec i s = .next t ∧ Effect base s i.mnemonic (some o) t := by
  cases i with
  | unmapped op => exact absurd rfl h
  | _ => exact ⟨_, _, _, rfl, rfl, rfl, fun s => ⟨_, rfl, by constructor⟩⟩

/-- With those base cycles an effect owes what the table says, less the tick it took (R202, R208). -/
theorem Effect.remainingCycles (h : Effect base s m (some o) t) (hc : costClass m = some c) (hbase : baseCost c o.mode = some base) :
    t.remainingCycles = base + extraCycles c m o s - 1 := by
  cases h with
  | lda | ldx | ldy | adc | sbc =>
    cases hc
    exact congrArg (base + · - 1) (pageCross_eq_readCrossing hbase s)
  | bcc | bcs | beq | bne | bmi | bpl | bvc | bvs =>
    cases hc; cases hbase
    exact branch_remainingCycles ..
  | sta | stx | sty | inc | dec | jmp => cases hc; rfl
  | _ => cases hc; cases hbase; rfl

/-- Every instruction of the table completes, owing its cost less 1, and its cost is 2 to 7 (R202, R208). -/
theorem exec_cost (h : i.mnemonic ≠ .unmapped) (s : State) :
    ∃ n t, cost i s = some n ∧ 2 ≤ n ∧ n ≤ 7 ∧ exec i s = .next t ∧ t.remainingCycles = n - 1 := by
  obtain ⟨o, c, base, ho, hc, hbase, hexec⟩ := exec_effect_baseCost h
  obtain ⟨t, ht, heffect⟩ := hexec s
  obtain ⟨hlow, hhigh⟩ := baseCost_bounds c o.mode base hbase
  have hextra := extraCycles_le hc o s
  exact ⟨_, t, cost_eq ho hc hbase s, by omega, by omega, ht, heffect.remainingCycles hc hbase⟩

/-- After `k` of its ticks an instruction has had its effect and owes the rest (R209). -/
theorem runTicks_exec {k : Nat} (hboundary : s.remainingCycles = 0) (ht : exec s.fetched s = .next t) (hk : 1 ≤ k)
    (hkt : k ≤ t.remainingCycles + 1) : runTicks k s = .next { t with remainingCycles := t.remainingCycles + 1 - k } := by
  obtain ⟨j, rfl⟩ := Nat.exists_eq_add_of_le' hk
  rw [runTicks_succ ((tick_of_boundary hboundary).trans ht), runTicks_drain (by omega), Nat.add_sub_add_right]

/-! ## Self-loops (70_reset_and_hazards.md R248) -/

theorem selfLoop_iff : s.selfLoop = true ↔ s.remainingCycles = 0 ∧ (s.fetched = .jmpAbsolute s.pc ∨
    branchTaken s s.fetched.mnemonic = true ∧ s.fetched.operand = some (.relative 0xFE#8)) := by
  simp [State.selfLoop, State.atBoundary]

/-- The displacement 0xFE undoes the length of the branch. -/
theorem resolve_relative_FE (s : State) : (resolve (.relative 0xFE#8) s).ea = s.pc :=
  calc s.pc + 2 + (0xFE#8).signExtend 16
      = s.pc + (2 + (0xFE#8).signExtend 16) := BitVec.add_assoc ..
    _ = s.pc + 0 := congrArg (s.pc + ·) (by decide)
    _ = s.pc := BitVec.add_zero _

/-- In a self-loop the fetched instruction is in the table, and its whole effect is the cycles it owes. -/
theorem exec_of_selfLoop (h : s.selfLoop = true) :
    s.fetched.mnemonic ≠ .unmapped ∧ ∃ n, exec s.fetched s = .next { s with remainingCycles := n } := by
  obtain ⟨_, hjump | ⟨htaken, hoperand⟩⟩ := selfLoop_iff.mp h
  · rw [hjump]
    exact ⟨nofun, 2, rfl⟩
  · have hclass := costClass_of_branchTaken htaken
    refine ⟨fun hm => by simp [hm, costClass] at hclass, ?_⟩
    obtain ⟨base, hexec⟩ := exec_effect s.fetched
    obtain ⟨t, ht, heffect⟩ := hexec s
    obtain ⟨d, ho, rfl⟩ := heffect.of_branch hclass
    obtain rfl : 0xFE#8 = d := by simpa using hoperand.symm.trans ho
    rw [ht, htaken, branch_taken, resolve_relative_FE]
    exact ⟨_, rfl⟩

end Sys2Proof.Machine

namespace Sys2Proof.Proofs

open Sys2Proof Sys2Proof.Machine

/-- Settles O51: an unmapped byte has no row in the table, every other instruction is executed at its row's cost. -/
theorem cyclesFollowTheCostTable : Obligations.CyclesFollowTheCostTable := by
  intro i s
  by_cases hm : i.mnemonic = .unmapped
  · simp [hm, cost_of_unmapped hm]
  · obtain ⟨n, t, hcost, hlow, hhigh, ht, hcycles⟩ := exec_cost hm s
    refine ⟨by simp [hm, hcost], fun n' hn' => ?_⟩
    obtain rfl : n = n' := Option.some.inj (hcost.symm.trans hn')
    exact ⟨hlow, hhigh, t, ht, hcycles⟩

/-- Settles O52: the first tick is the execution, at the table's cost, and the others drain. -/
theorem instructionOccupiesItsCost : Obligations.InstructionOccupiesItsCost := by
  intro s n hboundary hcost
  obtain ⟨hlow, _, t, ht, hcycles⟩ := (cyclesFollowTheCostTable s.fetched s).2 n hcost
  have hn : t.remainingCycles + 1 = n := by omega
  refine ⟨t, ht, fun k hk hkn => ?_⟩
  rw [runTicks_exec hboundary ht hk (by omega), hn]

/-- Settles O53: when the instruction's cycles are spent, nothing is left of its effect. -/
theorem selfLoopReturnsToItself : Obligations.SelfLoopReturnsToItself := by
  intro s hloop
  obtain ⟨hboundary, _⟩ := selfLoop_iff.mp hloop
  obtain ⟨hm, r, hexec⟩ := exec_of_selfLoop hloop
  obtain ⟨n, _, hcost, hlow, _⟩ := exec_cost hm s
  obtain ⟨t, ht, hrun⟩ := instructionOccupiesItsCost s n hboundary hcost
  obtain rfl : { s with remainingCycles := r } = t := next_unique hexec ht
  refine ⟨n, hcost, (hrun n (by omega) le_rfl).trans ?_⟩
  rw [Nat.sub_self, ← hboundary]

end Sys2Proof.Proofs
end

section
/-! The invariant of the run (47_dispatch.md R210): bits 5 and 4 of P, the cycles owed and the canonical arrays, kept by the tick and by the gap. -/

namespace Sys2Proof.Machine

variable {base : Nat} {s t : State} {m : Mnemonic} {o : Option Operand}

theorem State.inv_iff (s : State) :
    s.inv = true ↔ s.p &&& 0x30#8 = 0 ∧ s.remainingCycles ≤ 6 ∧ s.memoryWf = true := by
  simp [State.inv, and_assoc]

/-! ## The arrays: no update of a register, of P or of PC reaches them -/

@[simp] theorem State.memoryWf_advance (s : State) (len cost : Nat) : (s.advance len cost).memoryWf = s.memoryWf := rfl

@[simp] theorem State.memoryWf_jumpTo (s : State) (target : U16) (cost : Nat) : (s.jumpTo target cost).memoryWf = s.memoryWf := rfl

@[simp] theorem State.memoryWf_setNZ (s : State) (v : Byte) : (s.setNZ v).memoryWf = s.memoryWf := rfl

@[simp] theorem State.memoryWf_setStatus (s : State) (v : Byte) : (s.setStatus v).memoryWf = s.memoryWf := rfl

@[simp] theorem State.memoryWf_afterPull (s : State) : s.afterPull.memoryWf = s.memoryWf := rfl

@[simp] theorem State.memoryWf_setReg (s : State) (r : Reg) (v : Byte) : (s.setReg r v).memoryWf = s.memoryWf := by
  cases r <;> rfl

theorem addToA_memoryWf (n : Byte) (o : Operand) (base : Nat) (s : State) : (addToA n o base s).memoryWf = s.memoryWf := rfl

theorem branch_memoryWf (taken : Bool) (d : Byte) (s : State) : (branch taken d s).memoryWf = s.memoryWf := by
  cases taken <;> rfl

/-! ## Every instruction, the tick and the gap -/

/-- The hard-wired bits stay 0: PLP and RTI clear them, nothing else writes them (10_state.md R32, decision D9). -/
theorem Effect.reserved_kept (h : Effect base s m o t) (hp : s.p &&& 0x30#8 = 0) : t.p &&& 0x30#8 = 0 := by
  cases h with
  | plp | rti => exact State.setStatus_and_reserved s s.pulled
  | lda | ldx | ldy => rwa [load_p, setNZ_and_reserved]
  | tax | tay | tsx | txa | tya => rwa [transfer_p, setNZ_and_reserved]
  | inc | dec => rwa [modifyMemory_p, setNZ_and_reserved]
  | inx | iny | dex | dey => rwa [modifyRegister_p, setNZ_and_reserved]
  | pla => exact (setNZ_and_reserved ..).trans hp
  | adc | sbc => exact (addFlags_and_reserved ..).trans hp
  | sta | stx | sty => rwa [store_p]
  | bcc | bcs | beq | bne | bmi | bpl | bvc | bvs => rwa [branch_p]
  | pha | php => rwa [State.advance_p, State.push_p]
  | jsr => rwa [callSubroutine_p]
  | txs | jmp | rts | unmapped => exact hp

/-- The arrays stay canonical: what stores does so by bus writes and pushes. -/
theorem Effect.memoryWf_kept (h : Effect base s m o t) (hwf : s.memoryWf = true) : t.memoryWf = true := by
  cases h with
  | sta | stx | sty =>
    rw [store, State.memoryWf_advance]
    exact State.memoryWf_write _ _ hwf
  | inc | dec =>
    rw [modifyMemory, State.memoryWf_advance, State.memoryWf_setNZ]
    exact State.memoryWf_write _ _ hwf
  | pha | php =>
    rw [State.memoryWf_advance]
    exact State.memoryWf_push _ hwf
  | jsr =>
    rw [callSubroutine, State.memoryWf_jumpTo]
    exact State.memoryWf_push _ (State.memoryWf_push _ hwf)
  | bcc | bcs | beq | bne | bmi | bpl | bvc | bvs => rwa [branch_memoryWf]
  | unmapped => exact hwf
  | _ =>
    simpa [load, transfer, transferToStack, modifyRegister, jump, addToA_memoryWf, returnFromSubroutine, returnFromInterrupt] using hwf

/-- An instruction keeps the invariant: it owes its cost less 1, at most 6, or changes nothing. -/
theorem inv_exec {i : Instr} (hinv : s.inv = true) (ht : exec i s = .next t) : t.inv = true := by
  obtain ⟨hp, hcycles, hwf⟩ := s.inv_iff.mp hinv
  obtain ⟨base, hexec⟩ := exec_effect i
  obtain ⟨t', ht', heffect⟩ := hexec s
  obtain rfl : t' = t := next_unique ht' ht
  refine t'.inv_iff.mpr ⟨heffect.reserved_kept hp, ?_, heffect.memoryWf_kept hwf⟩
  by_cases hm : i.mnemonic = .unmapped
  · obtain rfl : s = t' := next_unique (exec_of_unmapped hm s) ht
    exact hcycles
  · obtain ⟨n, u, _, _, hn, hu, hucycles⟩ := exec_cost hm s
    obtain rfl : u = t' := next_unique hu ht
    omega

theorem inv_drain (hinv : s.inv = true) : s.drain.inv = true := by
  obtain ⟨hp, hcycles, hwf⟩ := s.inv_iff.mp hinv
  exact s.drain.inv_iff.mpr ⟨hp, (Nat.sub_le ..).trans hcycles, hwf⟩

theorem inv_tick (hinv : s.inv = true) (ht : tick s = .next t) : t.inv = true := by
  obtain hboundary | howed := Nat.eq_zero_or_pos s.remainingCycles
  · exact inv_exec hinv ((tick_of_boundary hboundary).symm.trans ht)
  · obtain rfl : s.drain = t := next_unique (tick_of_owed howed) ht
    exact inv_drain hinv

/-- The peripheral agent reaches neither P nor the cycles, and writes the windows by array writes (20_memory.md R65). -/
theorem inv_gap (hinv : s.inv = true) : s.gap.inv = true := by
  obtain ⟨hp, hcycles, hwf⟩ := s.inv_iff.mp hinv
  refine s.gap.inv_iff.mpr ⟨?_, ?_, State.memoryWf_gap hwf⟩
  · rwa [State.gap_p]
  · rwa [State.gap_remainingCycles]

end Sys2Proof.Machine

namespace Sys2Proof.Proofs

open Sys2Proof Sys2Proof.Machine

/-- Settles O56: the tick keeps the invariant, and so does the gap after it. -/
theorem everyStepKeepsTheInvariant : Obligations.EveryStepKeepsTheInvariant := by
  intro s s' hinv hstep
  obtain ⟨t, ht, rfl⟩ := exists_tick_of_step hstep
  exact inv_gap (inv_tick hinv ht)

end Sys2Proof.Proofs
end

section
/-! Placing an instruction where the next tick fetches it (70_reset_and_hazards.md R244, log 3). -/

namespace Sys2Proof.Machine

variable {s : State} {a b : U16}

/-- The index of the element a route leads to, modulo the 8 bytes of the smallest array. -/
def Route.residue : Route → Nat
  | .ram i => i.val % 8
  | .ppu i => i.val % 8
  | .apu i => i.val % 8
  | .openBus => 0

/-- All region bases and sizes are multiples of 8 (20_memory.md R51). -/
theorem residue_route (h : a.toNat < 0x4018) : (route a).residue = a.toNat % 8 := by
  obtain hRam | hPpu | hApu : a.toNat < 0x2000 ∨ (0x2000 ≤ a.toNat ∧ a.toNat < 0x4000) ∨ 0x4000 ≤ a.toNat := by omega
  · rw [route_of_lt hRam]
    show a.toNat % 0x0800 % 8 = a.toNat % 8
    omega
  · rw [route_of_ppu_window hPpu.1 hPpu.2]
    show (a.toNat - 0x2000) % 8 % 8 = a.toNat % 8
    omega
  · rw [route_of_apu_window hApu h]
    show (a.toNat - 0x4000) % 8 = a.toNat % 8
    omega

/-- Two bytes of one instruction never share an element. -/
theorem route_ne_of_near (hab : a.toNat < b.toNat) (hnear : b.toNat < a.toNat + 8) (hb : b.toNat < 0x4018) : route a ≠ route b := by
  intro h
  have hresidue := congrArg Route.residue h
  rw [residue_route (by omega), residue_route hb] at hresidue
  omega

/-! ## The place -/

theorem State.readyToFetch_pc (s : State) : s.readyToFetch.pc = if s.pc.toNat + 2 < 0x4018 then s.pc else 0x0000#16 := by
  simp [State.readyToFetch, State.canHoldInstr]

theorem State.readyToFetch_has_storage (s : State) : s.readyToFetch.pc.toNat + 2 < 0x4018 := by
  rw [State.readyToFetch_pc]
  split
  · assumption
  · decide

/-! ## The bytes placed -/

theorem State.storeAtPc_frame (s : State) (b0 b1 b2 : Byte) :
    { s.storeAtPc b0 b1 b2 with ram := s.ram, ppu := s.ppu, apu := s.apu } = s := by
  simp [State.storeAtPc]

@[simp] theorem State.storeAtPc_pc (s : State) (b0 b1 b2 : Byte) : (s.storeAtPc b0 b1 b2).pc = s.pc := by
  simp [State.storeAtPc]

@[simp] theorem State.storeAtPc_remainingCycles (s : State) (b0 b1 b2 : Byte) :
    (s.storeAtPc b0 b1 b2).remainingCycles = s.remainingCycles := by
  simp [State.storeAtPc]

theorem State.read_storeAtPc_other (h : ∀ k : Fin 3, route (s.pc + BitVec.ofNat 16 k.val) ≠ route a) (b0 b1 b2 : Byte) :
    (s.storeAtPc b0 b1 b2).read a = s.read a := by
  have h0 : route s.pc ≠ route a := by simpa using h 0
  have h1 : route (s.pc + 1) ≠ route a := h 1
  have h2 : route (s.pc + 2) ≠ route a := h 2
  rw [State.storeAtPc, State.read_write_other h2, State.read_write_other h1, State.read_write_other h0]

/-- The fetch reads back the three bytes: each store leaves those before it alone. -/
theorem State.fetched_storeAtPc (h : s.pc.toNat + 2 < 0x4018) (b0 b1 b2 : Byte) :
    (s.storeAtPc b0 b1 b2).fetched = decodeOp b0 b1 b2 := by
  have h1 : (s.pc + 1).toNat = s.pc.toNat + 1 := by simp; omega
  have h2 : (s.pc + 2).toNat = s.pc.toNat + 2 := by simp; omega
  have h01 : route (s.pc + 1) ≠ route s.pc := (route_ne_of_near (by omega) (by omega) (by omega)).symm
  have h02 : route (s.pc + 2) ≠ route s.pc := (route_ne_of_near (by omega) (by omega) (by omega)).symm
  have h12 : route (s.pc + 2) ≠ route (s.pc + 1) := (route_ne_of_near (by omega) (by omega) (by omega)).symm
  have hb0 : (s.storeAtPc b0 b1 b2).read s.pc = b0 := by
    rw [State.storeAtPc, State.read_write_other h02, State.read_write_other h01,
      State.read_write_same rfl (route_ne_openBus (by omega))]
  have hb1 : (s.storeAtPc b0 b1 b2).read (s.pc + 1) = b1 := by
    rw [State.storeAtPc, State.read_write_other h12, State.read_write_same rfl (route_ne_openBus (by omega))]
  have hb2 : (s.storeAtPc b0 b1 b2).read (s.pc + 2) = b2 := by
    rw [State.storeAtPc, State.read_write_same rfl (route_ne_openBus (by omega))]
  rw [State.fetched, State.storeAtPc_pc, hb0, hb1, hb2]

end Sys2Proof.Machine

namespace Sys2Proof.Proofs

open Sys2Proof Sys2Proof.Machine

/-- Settles O55: the place has storage for three bytes, so the fetch reads back the word's. -/
theorem placedWordRunsNext : Obligations.PlacedWordRunsNext := by
  intro s nbits w
  refine ⟨⟨_, decodeTableWord_eq nbits w, ?runs⟩, ?frame, ?pc, fun a ha => ?other⟩
  case runs =>
    have hboundary : (s.withFetchWord nbits w).remainingCycles = 0 := State.storeAtPc_remainingCycles ..
    rw [tick_of_boundary hboundary]
    exact congrArg (exec · _) (State.fetched_storeAtPc s.readyToFetch_has_storage ..)
  case frame =>
    exact congrArg (fun u : State => { u with pc := s.pc, remainingCycles := s.remainingCycles, ram := s.ram, ppu := s.ppu, apu := s.apu })
      (s.readyToFetch.storeAtPc_frame ..)
  case pc => exact (State.storeAtPc_pc ..).trans s.readyToFetch_pc
  case other =>
    have hpc : (s.withFetchWord nbits w).pc = s.readyToFetch.pc := State.storeAtPc_pc ..
    rw [hpc] at ha
    exact (State.read_storeAtPc_other ha ..).trans (State.read_congr rfl rfl rfl a)

end Sys2Proof.Proofs
end
